-- ==== Sys2Proof/Word.lean ====
section
/-! DEFINITION. The value types of the block: bytes, 7-bit operands, 16-bit samples and registers, and the
floating-point carrier FLT of 00_scope.md rule R11. Types only; the arithmetic over them is in Machine/Arith.lean
and Machine/Flt.lean. -/

namespace Sys2Proof

/-- A byte (`u8`) of a compressed buffer or of a vibrato table (rule R60). -/
abbrev Byte := BitVec 8

/-- A 7-bit operand (`u7`): key, velocity, program, bend value, controller number or value (rule R100). -/
abbrev U7 := BitVec 7

/-- A 16-bit unsigned quantity (`u16`): the halves of the envelope register, a reverb register, a counter. -/
abbrev U16 := BitVec 16

/-- A signed 16-bit sample (`s16`): read with `BitVec.toInt`, always in -32768 .. 32767 (rule R8). -/
abbrev S16 := BitVec 16

/-- The 32-bit envelope register and the 32-bit command word (rules R94 and R98). -/
abbrev U32 := BitVec 32

/-- FLT, the carrier of the numerics record NUM (rule R11, decision D2): the values of IEEE 754 binary64.
`fin neg exp frac` is the finite number with sign `neg`, biased exponent `exp` (0 for zeros and subnormals) and
52-bit fraction `frac`; every finite binary64 value has exactly one such form. NaN is one value: the block never
looks at a NaN's payload (rule R100: "Port operands are typed values, not bit patterns"). -/
inductive Flt where
  | nan
  | inf (neg : Bool)
  | fin (neg : Bool) (exp : Fin 2047) (frac : BitVec 52)
deriving DecidableEq, Repr, Inhabited

end Sys2Proof
end

