-- ==== Sys2Proof/Syntax.lean ====
section
/-! DEFINITION. The operations of the block, one constructor per row of spec/opcode_table.json: the 19 operations of
30_encoding.md rule R99 with their word operands, and the 4 data formats of rules R91, R92, R94 and R96 with their
fields. Port operands (rule R98) are not part of an `Instr`: the host presents them beside the word, and the machine
holds them in `State.ports`. -/

namespace Sys2Proof

inductive Instr where
  /-- 0x10 `ADPCM.DECODE` (R133); port operand `buf` -/
  | adpcmDecode
  /-- 0x11 `ADPCM.FETCH` (R137); port operand `offset` -/
  | adpcmFetch
  /-- 0x20 `ENV.LOAD` (R160); port operands `lo16`, `hi16` -/
  | envLoad
  /-- 0x21 `ENV.KEYON` (R163) -/
  | envKeyon
  /-- 0x22 `ENV.KEYOFF` (R164) -/
  | envKeyoff
  /-- 0x23 `ENV.TICK` (R165) -/
  | envTick
  /-- 0x30 `RVB.WRITE` (R200): `a` = register index, `b ++ c` = value -/
  | rvbWrite (index : BitVec 8) (value : U16)
  /-- 0x31 `RVB.RESET` (R201) -/
  | rvbReset
  /-- 0x32 `RVB.STEP` (R204); port operands `inL`, `inR : s16` -/
  | rvbStep
  /-- 0x33 `RVB.STEPF` (R210); port operands `inL`, `inR : FLT` -/
  | rvbStepf
  /-- 0x40 `VIB.CONFIG` (R240): `a[0]`, `a[1]`; port operands `shape`, `depth_raw`, `depth` -/
  | vibConfig (hasShape hasDepth : Bool)
  /-- 0x41 `VIB.TICK` (R244); port operands `rate`, `drate` -/
  | vibTick
  /-- 0x50 `MIX.NOTE_ON` (R270) -/
  | mixNoteOn (channel : BitVec 8) (key velocity : U7)
  /-- 0x51 `MIX.NOTE_OFF` (R275) -/
  | mixNoteOff (channel : BitVec 8) (key : U7)
  /-- 0x52 `MIX.PROGRAM` (R276) -/
  | mixProgram (channel : BitVec 8) (program : U7)
  /-- 0x53 `MIX.BEND` (R277) -/
  | mixBend (channel : BitVec 8) (bend : U7)
  /-- 0x54 `MIX.CC` (R278) -/
  | mixCc (channel : BitVec 8) (number value : U7)
  /-- 0x55 `MIX.RENDER` (R281): `n = word[23:0]` -/
  | mixRender (n : BitVec 24)
  /-- 0x56 `MIX.BLEND` (R289): `a[0]` = run the reverb -/
  | mixBlend (rev : Bool)
  /-- data format `FMT.ADPCM_HDR` (R91): byte 0 of a compressed block -/
  | fmtAdpcmHdr (filterCode shiftCode : BitVec 4)
  /-- data format `FMT.ADPCM_FLAGS` (R92): byte 1 of a compressed block, bits 7:3 ignored -/
  | fmtAdpcmFlags (loopStart loopEn endBit : Bool)
  /-- data format `FMT.ADSR` (R94): the envelope register, bit 29 ignored -/
  | fmtAdsr (susExp susDir : Bool) (susShift : BitVec 5) (susStep : BitVec 2) (relExp : Bool) (relShift : BitVec 5)
      (attExp : Bool) (attShift : BitVec 5) (attStep : BitVec 2) (decShift susLevel : BitVec 4)
  /-- data format `FMT.RATE` (R96): the 7-bit rate byte -/
  | fmtRate (shift : BitVec 5) (step : BitVec 2)
deriving DecidableEq, Repr

end Sys2Proof
end

