-- ==== Sys2Proof/WellFormed.lean ====
section
/-! DEFINITION. When an `Instr` is an operation the host can present. The widths of the operand fields are in the
types, and every value of an operand field is legal (rule R100: an index out of range makes the operation do
nothing). The one check left is that the term is one of the 19 operations and not a data format: "Every operation is
presented to the block as one 32-bit command word" (rule R98), and the opcode map (rule R99) has no row for a format. -/

namespace Sys2Proof

/-- True of the 19 operations of rule R99, false of the 4 data formats. -/
def Instr.isOperation : Instr → Bool
  | .adpcmDecode => true
  | .adpcmFetch => true
  | .envLoad => true
  | .envKeyon => true
  | .envKeyoff => true
  | .envTick => true
  | .rvbWrite _ _ => true
  | .rvbReset => true
  | .rvbStep => true
  | .rvbStepf => true
  | .vibConfig _ _ => true
  | .vibTick => true
  | .mixNoteOn _ _ _ => true
  | .mixNoteOff _ _ => true
  | .mixProgram _ _ => true
  | .mixBend _ _ => true
  | .mixCc _ _ _ => true
  | .mixRender _ => true
  | .mixBlend _ => true
  | .fmtAdpcmHdr _ _ => false
  | .fmtAdpcmFlags _ _ _ => false
  | .fmtAdsr _ _ _ _ _ _ _ _ _ _ _ => false
  | .fmtRate _ _ => false

/-- A well-formed instruction is an operation (rules R98 and R99). -/
abbrev Instr.WellFormed (i : Instr) : Prop := i.isOperation = true

end Sys2Proof
end

