-- ==== Sys2Proof/Decode.lean ====
section
/-! DEFINITION. Decoding and encoding of the command word (30_encoding.md rules R98 to R101) and of the four data
formats (rules R91, R92, R94 and R96). The decoder of command words is total on 32 bits and rejects a reserved opcode
by name; the format decoders are total on their bytes, because no data-format encoding is illegal (rule R102). -/

namespace Sys2Proof

/-- `op = word[31:24]` (rule R98). -/
def opOf (w : U32) : BitVec 8 := w.extractLsb' 24 8
/-- `a = word[23:16]` (rule R98). -/
def aOf (w : U32) : BitVec 8 := w.extractLsb' 16 8
/-- The low 7 bits of `b = word[15:8]`; bit 7 of the byte is ignored (rule R100). -/
def b7Of (w : U32) : U7 := w.extractLsb' 8 7
/-- The low 7 bits of `c = word[7:0]`; bit 7 of the byte is ignored (rule R100). -/
def c7Of (w : U32) : U7 := w.extractLsb' 0 7
/-- `b ++ c = word[15:0]` (rule R200). -/
def bcOf (w : U32) : U16 := w.extractLsb' 0 16
/-- `n = word[23:0]` (rule R98). -/
def nOf (w : U32) : BitVec 24 := w.extractLsb' 0 24

/-- Why a command word names no operation: its opcode is reserved (rule R101). -/
inductive DecodeError where
  | reservedOpcode (op : BitVec 8)
deriving DecidableEq, Repr

/-- The opcode map of rule R99. Operand bytes an operation does not use are ignored. -/
def decode (w : U32) : Except DecodeError Instr :=
  match (opOf w).toNat with
  | 0x10 => .ok .adpcmDecode
  | 0x11 => .ok .adpcmFetch
  | 0x20 => .ok .envLoad
  | 0x21 => .ok .envKeyon
  | 0x22 => .ok .envKeyoff
  | 0x23 => .ok .envTick
  | 0x30 => .ok (.rvbWrite (aOf w) (bcOf w))
  | 0x31 => .ok .rvbReset
  | 0x32 => .ok .rvbStep
  | 0x33 => .ok .rvbStepf
  | 0x40 => .ok (.vibConfig (w.getLsbD 16) (w.getLsbD 17))
  | 0x41 => .ok .vibTick
  | 0x50 => .ok (.mixNoteOn (aOf w) (b7Of w) (c7Of w))
  | 0x51 => .ok (.mixNoteOff (aOf w) (b7Of w))
  | 0x52 => .ok (.mixProgram (aOf w) (b7Of w))
  | 0x53 => .ok (.mixBend (aOf w) (b7Of w))
  | 0x54 => .ok (.mixCc (aOf w) (b7Of w) (c7Of w))
  | 0x55 => .ok (.mixRender (nOf w))
  | 0x56 => .ok (.mixBlend (w.getLsbD 16))
  | _ => .error (.reservedOpcode (opOf w))

/-- `filter_code`, bits 7:4 of the header byte (rule R91). -/
def hdrFilterCode (b : Byte) : BitVec 4 := b.extractLsb' 4 4
/-- `shift_code`, bits 3:0 of the header byte (rule R91). -/
def hdrShiftCode (b : Byte) : BitVec 4 := b.extractLsb' 0 4

/-- Header byte `ffffssss` of a compressed block (rule R91). -/
def decodeAdpcmHdr (b : Byte) : Instr := .fmtAdpcmHdr (hdrFilterCode b) (hdrShiftCode b)

/-- `loop_start`, bit 2 of the flag byte (rule R92). -/
def flagLoopStart (b : Byte) : Bool := b.getLsbD 2
/-- `loop_en`, bit 1 of the flag byte (rule R92). -/
def flagLoopEn (b : Byte) : Bool := b.getLsbD 1
/-- `end`, bit 0 of the flag byte (rule R92). -/
def flagEnd (b : Byte) : Bool := b.getLsbD 0

/-- Flag byte `xxxxxtle` of a compressed block (rule R92). -/
def decodeAdpcmFlags (b : Byte) : Instr := .fmtAdpcmFlags (flagLoopStart b) (flagLoopEn b) (flagEnd b)

/-- `sus_exp`, bit 31 of the envelope register (rule R94). -/
def adsrSusExp (r : U32) : Bool := r.getLsbD 31
/-- `sus_dir`, bit 30: 1 = falling (rule R94). -/
def adsrSusDir (r : U32) : Bool := r.getLsbD 30
/-- `sus_shift`, bits 28:24 (rule R94). -/
def adsrSusShift (r : U32) : BitVec 5 := r.extractLsb' 24 5
/-- `sus_step`, bits 23:22 (rule R94). -/
def adsrSusStep (r : U32) : BitVec 2 := r.extractLsb' 22 2
/-- `rel_exp`, bit 21 (rule R94). -/
def adsrRelExp (r : U32) : Bool := r.getLsbD 21
/-- `rel_shift`, bits 20:16 (rule R94). -/
def adsrRelShift (r : U32) : BitVec 5 := r.extractLsb' 16 5
/-- `att_exp`, bit 15 (rule R94). -/
def adsrAttExp (r : U32) : Bool := r.getLsbD 15
/-- `att_shift`, bits 14:10 (rule R94). -/
def adsrAttShift (r : U32) : BitVec 5 := r.extractLsb' 10 5
/-- `att_step`, bits 9:8 (rule R94). -/
def adsrAttStep (r : U32) : BitVec 2 := r.extractLsb' 8 2
/-- `dec_shift`, bits 7:4 (rule R94). -/
def adsrDecShift (r : U32) : BitVec 4 := r.extractLsb' 4 4
/-- `sus_level`, bits 3:0 (rule R94). -/
def adsrSusLevel (r : U32) : BitVec 4 := r.extractLsb' 0 4

/-- Envelope register `ed-sssssttxrrrrrAaaaaappDDDDllll` (rule R94). -/
def decodeAdsr (r : U32) : Instr :=
  .fmtAdsr (adsrSusExp r) (adsrSusDir r) (adsrSusShift r) (adsrSusStep r) (adsrRelExp r) (adsrRelShift r) (adsrAttExp r)
    (adsrAttShift r) (adsrAttStep r) (adsrDecShift r) (adsrSusLevel r)

/-- `reg = hi16 ++ lo16` (rules R63 and R95). -/
def adsrPack (lo16 hi16 : U16) : U32 := hi16 ++ lo16

/-- Rate byte `(shift << 2) | step` (rule R96). -/
def ratePack (shift : BitVec 5) (step : BitVec 2) : U7 := shift ++ step

/-- Rate byte `sssssSS` (rule R96). -/
def decodeRate (b : U7) : Instr := .fmtRate (b.extractLsb' 2 5) (b.extractLsb' 0 2)

/-- A command word from its opcode and its operand field (rule R98). -/
def command (op : BitVec 8) (operand : BitVec 24) : U32 := op ++ operand

/-- A Boolean as a bit field. -/
def bit (b : Bool) : BitVec 1 := BitVec.ofBool b

/-- A 7-bit operand in its byte, bit 7 zero (rule R100). -/
def byte7 (v : U7) : BitVec 8 := 0#1 ++ v

/-- The word of a well-formed instruction, unused operand bytes 0 (rule R99); of a data format its byte or register,
in the low bits, ignored bits 0. -/
def encode : Instr → U32
  | .adpcmDecode => command 0x10 0
  | .adpcmFetch => command 0x11 0
  | .envLoad => command 0x20 0
  | .envKeyon => command 0x21 0
  | .envKeyoff => command 0x22 0
  | .envTick => command 0x23 0
  | .rvbWrite index value => command 0x30 (index ++ value)
  | .rvbReset => command 0x31 0
  | .rvbStep => command 0x32 0
  | .rvbStepf => command 0x33 0
  | .vibConfig hasShape hasDepth => command 0x40 (0#6 ++ bit hasDepth ++ bit hasShape ++ 0#16)
  | .vibTick => command 0x41 0
  | .mixNoteOn channel key velocity => command 0x50 (channel ++ byte7 key ++ byte7 velocity)
  | .mixNoteOff channel key => command 0x51 (channel ++ byte7 key ++ 0#8)
  | .mixProgram channel program => command 0x52 (channel ++ byte7 program ++ 0#8)
  | .mixBend channel bend => command 0x53 (channel ++ byte7 bend ++ 0#8)
  | .mixCc channel number value => command 0x54 (channel ++ byte7 number ++ byte7 value)
  | .mixRender n => command 0x55 n
  | .mixBlend rev => command 0x56 (0#7 ++ bit rev ++ 0#16)
  | .fmtAdpcmHdr filterCode shiftCode => 0#24 ++ filterCode ++ shiftCode
  | .fmtAdpcmFlags loopStart loopEn endBit => 0#29 ++ bit loopStart ++ bit loopEn ++ bit endBit
  | .fmtAdsr susExp susDir susShift susStep relExp relShift attExp attShift attStep decShift susLevel =>
      bit susExp ++ bit susDir ++ 0#1 ++ susShift ++ susStep ++ bit relExp ++ relShift ++ bit attExp ++ attShift ++ attStep
        ++ decShift ++ susLevel
  | .fmtRate shift step => 0#25 ++ ratePack shift step

/-- The operation the decoder reads from a word numbered as spec/opcode_table.json numbers it: bit 0 is the least
significant bit of the one command word; bits above `nbits` are 0. A data format is not a command (rule R98), so a
format's byte read as a command word is a reserved opcode and yields `none`. -/
def decodeTableWord (nbits w : Nat) : Option Instr :=
  match decode (BitVec.ofNat 32 (w % 2 ^ nbits)) with
  | .ok i => some i
  | .error _ => none

end Sys2Proof
end

