-- ==== Sys2Proof/Machine/Channel.lean ====
section
/-! DEFINITION. The channel record of 10_state.md rule R30. It stands below Config.lean because two configuration
functions (`chan_lfo_ratio`, `lfo_advance`, rule R291) take a channel's state. -/

namespace Sys2Proof.Machine

/-- A `ChannelState` (rule R30): the controllers and running values of one of the sixteen channels. -/
structure ChannelState where
  /-- current program number -/
  program : U7
  /-- CC7 -/
  volume : U7
  /-- CC11 -/
  expression : U7
  /-- CC10, 64 is centre -/
  pan : U7
  /-- CC91, the channel's reverb-depth controller -/
  reverb : U7
  /-- CC1 -/
  modDepth : U7
  /-- the vibrato-rate controller, its number is the OPEN `P_CC_VIB_RATE` -/
  vibRate : U7
  /-- CC64 -/
  sustain : Bool
  /-- CC65 -/
  portaOn : Bool
  /-- CC5 -/
  portaTime : U7
  /-- phase of the channel's low-frequency modulation (rule R291) -/
  lfoPhase : Flt
  /-- pitch-bend factor, a ratio -/
  bend : Flt
  /-- key number of the last note-on that matched a Tone -/
  lastPitch : Flt
  /-- whether a prior note exists -/
  hasLast : Bool
deriving DecidableEq, Repr, Inhabited

end Sys2Proof.Machine
end

