-- ==== Sys2Proof/Config.lean ====
section
/-! DEFINITION. The configuration record of 00_scope.md rule R7: every parameter a field, the configuration functions
among them. The OPEN parameters of 92_eei_decisions.md section 2 are the opaque constants `Config.*Open` below, which
have no body, so no proof can use a value of theirs. The machine's own instance is `Config.machine`
(Machine/Params.lean); every operation takes the record as an argument, so that other instances can be tried. -/

namespace Sys2Proof

open Sys2Proof.Machine (ChannelState)

/-- Number of reverb registers (rule R97). -/
abbrev numRvbRegs : Nat := 35

/-- `P_ENV_STEP_NEG` (rules R7 and R162): how the sign of a step is flipped. -/
inductive StepNeg where
  | negate
  | complement
deriving DecidableEq, Repr

/-- `P_RVB_APF_FORM` (rules R7 and R207): the output form of an all-pass stage. -/
inductive ApfForm where
  | schroeder
  | literal
deriving DecidableEq, Repr

/-- The numerics record `NUM` (rules R7 and R11): what the rules compute on `FLT` with. The carrier `Flt` itself, its
order and its literals are no operations of the record. -/
structure Numerics where
  add : Flt → Flt → Flt
  sub : Flt → Flt → Flt
  mul : Flt → Flt → Flt
  div : Flt → Flt → Flt
  sqrt : Flt → Flt
  floor : Flt → Flt
  ofInt : Int → Flt
  isFinite : Flt → Bool
  /-- two to the power of the argument -/
  exp2 : Flt → Flt
  /-- read by no rule -/
  sin : Flt → Flt

/-- The configuration record (rule R7). Fields are named after the parameters. -/
structure Config where
  /-- `P_NUM_CHANNELS` -/
  numChannels : Nat
  /-- `P_SAMPLE_RATE` -/
  sampleRate : Nat
  /-- `P_ADPCM_BLOCK_BYTES` -/
  adpcmBlockBytes : Nat
  /-- `P_ADPCM_BLOCK_SAMPLES` -/
  adpcmBlockSamples : Nat
  /-- `P_ADPCM_MAX_INPUT` -/
  adpcmMaxInput : Nat
  /-- `P_ADPCM_K0[0..4]` -/
  adpcmK0 : Vector Int 5
  /-- `P_ADPCM_K1[0..4]` -/
  adpcmK1 : Vector Int 5
  /-- `P_ADPCM_PRED_ROUND` -/
  adpcmPredRound : Int
  /-- `P_ADPCM_PRED_SHIFT` -/
  adpcmPredShift : Nat
  /-- U1 of 93_implementation_defined.md: the last loop-start marker counts (true) or the first (false) -/
  adpcmLoopLastWins : Bool
  /-- U9: header codes 13 to 15 shift right (true) or act as code 9 (false) -/
  adpcmNegShiftRight : Bool
  /-- `P_ENV_INC_BASE` -/
  envIncBase : Nat
  /-- `P_ENV_CTR_THRESHOLD` -/
  envCtrThreshold : Nat
  /-- `P_ENV_EXP_THRESHOLD` -/
  envExpThreshold : Int
  /-- `P_ENV_SLOW_SHIFT` -/
  envSlowShift : Nat
  /-- `P_ENV_BAND` -/
  envBand : Nat
  /-- `P_ENV_STEP_NEG` -/
  envStepNeg : StepNeg
  /-- `P_ENV_MASK_AS` -/
  envMaskAS : Nat
  /-- `P_ENV_MASK_DR` -/
  envMaskDR : Nat
  /-- `P_ENV_DECAY_EXP` -/
  envDecayExp : Bool
  /-- `P_ENV_PHASE_INVERT` -/
  envPhaseInvert : Bool
  /-- `P_ENV_NORM` -/
  envNorm : Nat
  /-- `P_RVB_MEM_SAMPLES` -/
  rvbMemSamples : Nat
  /-- `P_RVB_ADDR_SCALE` -/
  rvbAddrScale : Nat
  /-- `P_RVB_APF_FORM` -/
  rvbApfForm : ApfForm
  /-- `P_RVB_PRESET`, OPEN; `none` when the model is given no preset (rule R39: then all registers reset to 0) -/
  rvbPreset : Option (Vector U16 numRvbRegs)
  /-- `P_REVERB_MIX`, OPEN -/
  reverbMix : Flt
  /-- `P_VIB_NEUTRAL` -/
  vibNeutral : Nat
  /-- `P_VIB_DEFAULT_SHAPE` -/
  vibDefaultShape : List Byte
  /-- `P_TAIL_SECONDS` -/
  tailSeconds : Nat
  /-- `P_CC_VIB_RATE`, OPEN; `none` when the parameter is not set -/
  ccVibRate : Option U7
  /-- `P_CH_DEFAULT_*` (rule R31) -/
  chDefault : ChannelState
  /-- `NUM` -/
  num : Numerics
  /-- `chan_lfo_ratio`, OPEN (rule R291) -/
  chanLfoRatio : ChannelState → Flt
  /-- `lfo_advance`, OPEN (rule R291) -/
  lfoAdvance : ChannelState → Flt
  /-- `porta_samples`, OPEN (rule R273) -/
  portaSamples : U7 → Nat
  /-- `vib_depth_semis`, OPEN (rule R274) -/
  vibDepthSemis : U7 → Flt
  /-- `vib_rate_hz`, OPEN (rule R274) -/
  vibRateHz : U7 → Flt
  /-- `noise_next`, OPEN (rule R284) -/
  noiseNext : Nat → S16 × Nat
  /-- the noise generator's initial state, OPEN (rule R284) -/
  noiseInit : Nat

/-- Free value: `P_REVERB_MIX` (rule R289, OPEN). -/
opaque Config.reverbMixOpen : Flt
/-- Free value: `P_CC_VIB_RATE` (rule R278, OPEN). -/
opaque Config.ccVibRateOpen : Option U7
/-- Free value: two to the power `x` for `x` other than a zero (rule R11 fixes only `exp2(0) = 1`). -/
opaque Config.exp2Open : Flt → Flt
/-- Free value: `sin` (rule R11). -/
opaque Config.sinOpen : Flt → Flt
/-- Free value: `chan_lfo_ratio` (rule R291, OPEN). -/
opaque Config.chanLfoRatioOpen : ChannelState → Flt
/-- Free value: `lfo_advance` (rule R291, OPEN). -/
opaque Config.lfoAdvanceOpen : ChannelState → Flt
/-- Free value: `porta_samples` (rule R273, OPEN). -/
opaque Config.portaSamplesOpen : U7 → Nat
/-- Free value: `vib_depth_semis` (rule R274, OPEN). -/
opaque Config.vibDepthSemisOpen : U7 → Flt
/-- Free value: `vib_rate_hz` (rule R274, OPEN). -/
opaque Config.vibRateHzOpen : U7 → Flt
/-- Free value: `noise_next` (rule R284, OPEN). -/
opaque Config.noiseNextOpen : Nat → S16 × Nat
/-- Free value: the initial state of the noise generator (rule R284, OPEN). -/
opaque Config.noiseInitOpen : Nat

end Sys2Proof
end

