-- ==== Sys2Proof/Machine/Arith.lean ====
section
/-! DEFINITION. The integer primitives of 00_scope.md rules R8 and R9: floor shifts, clamps, saturation to 16
bits and the q15 product. Integers are unbounded; only `sat16`, `clamp` and the `toS16` narrowing limit a value. -/

namespace Sys2Proof

/-- `asr(v, k) = floor(v / 2^k)` (rule R9). -/
def asr (v : Int) (k : Nat) : Int := v / (2 : Int) ^ k

/-- `shl(v, k) = v * 2^k` (rule R9). -/
def shl (v : Int) (k : Nat) : Int := v * (2 : Int) ^ k

/-- `clamp(v, lo, hi) = max(lo, min(hi, v))` (rule R9). -/
def clamp (v lo hi : Int) : Int := max lo (min hi v)

/-- `sat16(v) = clamp(v, -32768, 32767)` (rule R9). -/
def sat16 (v : Int) : Int := clamp v (-32768) 32767

/-- `q15(a, g) = asr(a * g, 15)`: a sample times a gain read as a fraction of 32768 (rule R9). -/
def q15 (a g : Int) : Int := asr (a * g) 15

/-- The one narrowing of an integer to a stored `s16`: saturate, then keep the 16 bits. -/
def toS16 (v : Int) : S16 := BitVec.ofInt 16 (sat16 v)

/-- `samp(r) = (zext_16(r) * P_RVB_ADDR_SCALE) div 2`: an offset register in samples (rules R64 and R202). -/
def samp (addrScale : Nat) (r : U16) : Nat := r.toNat * addrScale / 2

end Sys2Proof
end

