-- ==== Sys2Proof/Machine/Flt.lean ====
section
/-! DEFINITION. The numerics record NUM of 00_scope.md rule R11 on `Flt`: IEEE 754 binary64, round to nearest even
(decision D2). Each operation computes its exact result as a dyadic number (division and square root keep a sticky
bit) and rounds once, in `Flt.round`. `exp2` and `sin` are not here: they are configuration functions (Config.lean). The
rules do not call these operations but the fields of the record (`Numerics.machine` in Params.lean puts them there). -/

namespace Sys2Proof

/-- Significand of a finite value: its magnitude is `sig * 2^scale`. -/
def Flt.sig : Flt → Nat
  | .fin _ e f => if e.val = 0 then f.toNat else 4503599627370496 + f.toNat
  | _ => 0

/-- Binary exponent of the significand's unit. -/
def Flt.scale : Flt → Int
  | .fin _ e _ => (max e.val 1 : Nat) - (1075 : Int)
  | _ => 0

/-- The sign bit (NaN counts as positive; no rule reads its sign). -/
def Flt.neg : Flt → Bool
  | .nan => false
  | .inf n => n
  | .fin n _ _ => n

/-- `isFinite`: false for NaN and both infinities (rule R11). -/
def Flt.isFinite : Flt → Bool
  | .fin _ _ _ => true
  | _ => false

def Flt.isNaN : Flt → Bool
  | .nan => true
  | _ => false

/-- A signed integer from a sign and a magnitude. -/
def signed (neg : Bool) (m : Nat) : Int := if neg then -(m : Int) else (m : Int)

/-- The finite value whose sign is `neg` and whose biased exponent and fraction are the high and low parts of
`bits`; an infinity where the exponent would pass the largest finite one. -/
def Flt.ofBits (neg : Bool) (bits : Nat) : Flt :=
  if h : bits < 9218868437227405312 then
    .fin neg ⟨bits / 4503599627370496, by omega⟩ (BitVec.ofNat 52 bits)
  else .inf neg

/-- Rounding of `u * 2^(-1074 - s)` (plus, where `sticky`, something below one unit of `u`) to nearest even: `d` low
bits of `u` are dropped so that at most 53 are kept and none below 2^-1074. -/
def Flt.roundUnits (neg : Bool) (u s : Nat) (sticky : Bool) : Flt :=
  let d := max (Nat.log2 u - 52) s
  let q := u >>> d
  let r := u - (q <<< d)
  let up := decide ((1 <<< d) < 2 * r) || (decide (2 * r = 1 <<< d) && (sticky || q % 2 == 1))
  Flt.ofBits neg ((d - s) * 4503599627370496 + q + (if up then 1 else 0))

/-- Round `±n * 2^x` to the nearest `Flt`, ties to even, overflow to infinity (rule R11, decision D2). `sticky` says
that the exact magnitude lies strictly between `n` and `n + 1` times `2^x`; it is used with `n` of 55 bits or more. The
match on `n` stops the evaluation of a rounding of unknown operands, which would unfold the shift by 1074. -/
def Flt.round (neg : Bool) (n : Nat) (x : Int) (sticky : Bool) : Flt :=
  match n with
  | 0 => .fin neg 0 0
  | m + 1 =>
    if 0 ≤ x + 1074 then Flt.roundUnits neg ((m + 1) <<< (x + 1074).toNat) 0 sticky
    else Flt.roundUnits neg (m + 1) (-(x + 1074)).toNat sticky

/-- `ofInt`: exact for `|v| < 2^53` (rule R11), to nearest even beyond. -/
def Flt.ofInt (v : Int) : Flt := Flt.round (decide (v < 0)) v.natAbs 0 false

/-- `ofInt` of a natural number. -/
def Flt.ofNat (n : Nat) : Flt := Flt.ofInt n

def Flt.zero : Flt := .fin false 0 0
def Flt.one : Flt := .fin false 1023 0
def Flt.half : Flt := .fin false 1022 0

/-- Change of sign, the `0 - x` of nothing but the sign bit. -/
def Flt.negate : Flt → Flt
  | .nan => .nan
  | .inf n => .inf (!n)
  | .fin n e f => .fin (!n) e f

/-- `add`, correctly rounded. An exact zero sum is +0 unless both operands are -0 (round to nearest). -/
def Flt.add : Flt → Flt → Flt
  | .nan, _ => .nan
  | _, .nan => .nan
  | .inf a, .inf b => if a = b then .inf a else .nan
  | .inf a, .fin _ _ _ => .inf a
  | .fin _ _ _, .inf b => .inf b
  | .fin a ea fa, .fin b eb fb =>
    let x : Flt := .fin a ea fa
    let y : Flt := .fin b eb fb
    let k := min x.scale y.scale
    let v := signed a (x.sig <<< (x.scale - k).toNat) + signed b (y.sig <<< (y.scale - k).toNat)
    if v = 0 then .fin (a && b) 0 0
    else Flt.round (decide (v < 0)) v.natAbs k false

/-- `sub`, correctly rounded: IEEE 754 defines it as the sum with the negated operand. -/
def Flt.sub (x y : Flt) : Flt := Flt.add x y.negate

/-- `mul`, correctly rounded. -/
def Flt.mul : Flt → Flt → Flt
  | .nan, _ => .nan
  | _, .nan => .nan
  | .inf a, .inf b => .inf (a ^^ b)
  | .inf a, .fin b eb fb => if (Flt.fin b eb fb).sig = 0 then .nan else .inf (a ^^ b)
  | .fin a ea fa, .inf b => if (Flt.fin a ea fa).sig = 0 then .nan else .inf (a ^^ b)
  | .fin a ea fa, .fin b eb fb =>
    let x : Flt := .fin a ea fa
    let y : Flt := .fin b eb fb
    Flt.round (a ^^ b) (x.sig * y.sig) (x.scale + y.scale) false

/-- `div`, correctly rounded: a 110-bit longer dividend leaves a quotient of 55 bits or more, the remainder is the
sticky bit. `0/0` and `inf/inf` are NaN, a non-zero number over 0 is an infinity. -/
def Flt.div : Flt → Flt → Flt
  | .nan, _ => .nan
  | _, .nan => .nan
  | .inf _, .inf _ => .nan
  | .inf a, .fin b _ _ => .inf (a ^^ b)
  | .fin a _ _, .inf b => .fin (a ^^ b) 0 0
  | .fin a ea fa, .fin b eb fb =>
    let x : Flt := .fin a ea fa
    let y : Flt := .fin b eb fb
    if y.sig = 0 then (if x.sig = 0 then .nan else .inf (a ^^ b))
    else
      let n := x.sig <<< 110
      Flt.round (a ^^ b) (n / y.sig) (x.scale - y.scale - 110) (n % y.sig != 0)

/-- Bit-by-bit integer square root: the largest `r' ≥ r` that differs from `r` in the low `k` bits with
`r' * r' ≤ n`. -/
def isqrtFrom : Nat → Nat → Nat → Nat
  | 0, _, r => r
  | k + 1, n, r => isqrtFrom k n (if (r + 1 <<< k) * (r + 1 <<< k) ≤ n then r + 1 <<< k else r)

/-- The integer square root `floor(sqrt n)`. -/
def isqrt (n : Nat) : Nat := isqrtFrom (Nat.log2 n / 2 + 1) n 0

/-- `sqrt`, correctly rounded; `sqrt(-0) = -0`, the root of any other negative number is NaN. -/
def Flt.sqrt : Flt → Flt
  | .nan => .nan
  | .inf n => if n then .nan else .inf false
  | .fin n e f =>
    let x : Flt := .fin n e f
    if x.sig = 0 then x
    else if n then .nan
    else
      let odd := x.scale % 2
      let m := (x.sig <<< odd.toNat) <<< 120
      let r := isqrt m
      Flt.round false r ((x.scale - odd) / 2 - 60) (r * r != m)

/-- Position of a non-NaN value on the number line: strictly increasing in the value, equal for the two zeros. -/
def Flt.key : Flt → Int
  | .nan => 0
  | .inf n => signed n 9218868437227405312
  | .fin n e f => signed n (e.val * 4503599627370496 + f.toNat)

/-- IEEE equality: false on NaN, true of the two zeros. -/
def Flt.eq (x y : Flt) : Bool := !x.isNaN && !y.isNaN && decide (x.key = y.key)

/-- IEEE `<`: false on NaN. -/
def Flt.lt (x y : Flt) : Bool := !x.isNaN && !y.isNaN && decide (x.key < y.key)

/-- IEEE `<=`: false on NaN. -/
def Flt.le (x y : Flt) : Bool := !x.isNaN && !y.isNaN && decide (x.key ≤ y.key)

/-- `floor(x)` as an integer, for a finite `x`; 0 for a NaN or an infinity (no rule evaluates it there). -/
def Flt.floorInt (x : Flt) : Int :=
  if 0 ≤ x.scale then signed x.neg (x.sig <<< x.scale.toNat)
  else asr (signed x.neg x.sig) (-x.scale).toNat

/-- `floor` in FLT (rule R11): exact; a NaN or an infinity is itself, and an integral value is itself. -/
def Flt.floor (x : Flt) : Flt :=
  if x.isFinite then
    (let y := Flt.ofInt x.floorInt
     if x.eq y then x else y)
  else x

/-- `trunc(x * 32768)` for a finite `x`, rounded toward zero, computed exactly. -/
def Flt.truncQ15 (x : Flt) : Int :=
  let k := x.scale + 15
  if 0 ≤ k then signed x.neg (x.sig <<< k.toNat) else signed x.neg (x.sig >>> (-k).toNat)

end Sys2Proof
end

