-- ==== Sys2Proof/Machine/Numerics.lean ====
section
/-! DEFINITION. What the rules build from the numerics record NUM (00_scope.md rule R11): natural numbers and the integer
floor, and the two adapters between samples and FLT (rule R12). -/

namespace Sys2Proof

/-- `ofInt` of a natural number. -/
def Numerics.ofNat (n : Numerics) (k : Nat) : Flt := n.ofInt k

/-- `floor(x)` taken as an integer. -/
def Numerics.floorInt (n : Numerics) (x : Flt) : Int := (n.floor x).floorInt

/-- The adapter `f_to_s16(x) = sat16(trunc(x * 32768))`; a non-finite `x` gives 0 (rule R12). -/
def Numerics.toS16 (n : Numerics) (x : Flt) : S16 := if n.isFinite x then Sys2Proof.toS16 x.truncQ15 else 0

/-- The adapter `s16_to_f(v) = ofInt(v) / 32768` (rule R12). -/
def Numerics.ofS16 (n : Numerics) (v : S16) : Flt := n.div (n.ofInt v.toInt) (n.ofNat 32768)

end Sys2Proof
end

