-- ==== Sys2Proof/Machine/Params.lean ====
section
/-! DEFINITION. The machine's instance of the configuration record: the default values of 00_scope.md rule R7, the
default sine table of 43_vibrato.md rule R241, the channel reset values of 10_state.md rule R31, and the opaque
constants of Config.lean for every OPEN parameter. -/

namespace Sys2Proof

open Sys2Proof.Machine (ChannelState)

/-- Entries 0 to 63 of the default shape table (rule R241). -/
def vibSine0 : List Byte :=
  [127, 130, 133, 136, 139, 143, 146, 149, 152, 155, 158, 161, 164, 167, 170, 173,
   176, 179, 182, 184, 187, 190, 193, 195, 198, 200, 203, 205, 208, 210, 213, 215,
   217, 219, 221, 224, 226, 228, 229, 231, 233, 235, 236, 238, 239, 241, 242, 244,
   245, 246, 247, 248, 249, 250, 251, 251, 252, 253, 253, 254, 254, 254, 254, 254]

/-- Entries 64 to 127 of the default shape table (rule R241). -/
def vibSine1 : List Byte :=
  [255, 254, 254, 254, 254, 254, 253, 253, 252, 251, 251, 250, 249, 248, 247, 246,
   245, 244, 242, 241, 239, 238, 236, 235, 233, 231, 229, 228, 226, 224, 221, 219,
   217, 215, 213, 210, 208, 205, 203, 200, 198, 195, 193, 190, 187, 184, 182, 179,
   176, 173, 170, 167, 164, 161, 158, 155, 152, 149, 146, 143, 139, 136, 133, 130]

/-- Entries 128 to 191 of the default shape table (rule R241). -/
def vibSine2 : List Byte :=
  [127, 124, 121, 118, 115, 111, 108, 105, 102, 99, 96, 93, 90, 87, 84, 81,
   78, 75, 72, 70, 67, 64, 61, 59, 56, 54, 51, 49, 46, 44, 41, 39,
   37, 35, 33, 30, 28, 26, 25, 23, 21, 19, 18, 16, 15, 13, 12, 10,
   9, 8, 7, 6, 5, 4, 3, 3, 2, 1, 1, 0, 0, 0, 0, 0]

/-- Entries 192 to 255 of the default shape table (rule R241). -/
def vibSine3 : List Byte :=
  [0, 0, 0, 0, 0, 0, 1, 1, 2, 3, 3, 4, 5, 6, 7, 8,
   9, 10, 12, 13, 15, 16, 18, 19, 21, 23, 25, 26, 28, 30, 33, 35,
   37, 39, 41, 44, 46, 49, 51, 54, 56, 59, 61, 64, 67, 70, 72, 75,
   78, 81, 84, 87, 90, 93, 96, 99, 102, 105, 108, 111, 115, 118, 121, 124]

/-- `P_VIB_DEFAULT_SHAPE`: the 256 entries listed by rule R241. -/
def vibDefaultTable : List Byte := vibSine0 ++ vibSine1 ++ vibSine2 ++ vibSine3

/-- `P_CH_DEFAULT_*`: the channel values of rule R31. -/
def chDefaults : ChannelState where
  program := 0
  volume := 127
  expression := 127
  pan := 64
  reverb := 127
  modDepth := 0
  vibRate := 64
  sustain := false
  portaOn := false
  portaTime := 0
  lfoPhase := .zero
  bend := .one
  lastPitch := .zero
  hasLast := false

/-- `exp2` of the machine: 1 at (either) zero, as rule R11 states, and free elsewhere. -/
def exp2Machine (x : Flt) : Flt := if x.eq .zero then .one else Config.exp2Open x

/-- The numerics record of the machine: IEEE 754 binary64, round to nearest even (decision D2). -/
def Numerics.machine : Numerics where
  add := Flt.add
  sub := Flt.sub
  mul := Flt.mul
  div := Flt.div
  sqrt := Flt.sqrt
  floor := Flt.floor
  ofInt := Flt.ofInt
  isFinite := Flt.isFinite
  exp2 := exp2Machine
  sin := Config.sinOpen

/-- The configuration of the machine (rule R7's default column; OPEN parameters are free). -/
def Config.machine : Config where
  numChannels := 16
  sampleRate := 44100
  adpcmBlockBytes := 16
  adpcmBlockSamples := 28
  adpcmMaxInput := 1048576
  adpcmK0 := #v[0, 60, 115, 98, 122]
  adpcmK1 := #v[0, 0, -52, -55, -60]
  adpcmPredRound := 32
  adpcmPredShift := 6
  adpcmLoopLastWins := true
  adpcmNegShiftRight := true
  envIncBase := 0x8000
  envCtrThreshold := 0x8000
  envExpThreshold := 0x6000
  envSlowShift := 1
  envBand := 44
  envStepNeg := .negate
  envMaskAS := 0x7F
  envMaskDR := 0x7C
  envDecayExp := true
  envPhaseInvert := false
  envNorm := 32768
  rvbMemSamples := 262144
  rvbAddrScale := 8
  rvbApfForm := .schroeder
  rvbPreset := none
  reverbMix := Config.reverbMixOpen
  vibNeutral := 127
  vibDefaultShape := vibDefaultTable
  tailSeconds := 2
  ccVibRate := Config.ccVibRateOpen
  chDefault := chDefaults
  num := Numerics.machine
  chanLfoRatio := Config.chanLfoRatioOpen
  lfoAdvance := Config.lfoAdvanceOpen
  portaSamples := Config.portaSamplesOpen
  vibDepthSemis := Config.vibDepthSemisOpen
  vibRateHz := Config.vibRateHzOpen
  noiseNext := Config.noiseNextOpen
  noiseInit := Config.noiseInitOpen

end Sys2Proof
end

