-- ==== Sys2Proof/Machine/State.lean ====
section
/-! DEFINITION. The state of the block as plain data: everything 10_state.md (rules R20 to R39) gives the machine,
the host's read-only inputs (rules R33, R70 and R248), and the model's own interface fields (the queue of presented
operations, the port operands and the result ports of rules R98 and R99). `State.reset` is rule R39's table. -/

namespace Sys2Proof.Machine

/-- A finite map from natural numbers: entries in rising order of the key, at most one per key (Machine/Ops.lean
keeps the order). -/
abbrev SMap (α : Type) := List (Nat × α)

/-- A `DecodedSample` (rule R22). -/
structure DecodedSample where
  pcm : List S16
  loopStart : Nat
  loopEnd : Nat
  looping : Bool
deriving DecidableEq, Repr, Inhabited

/-- The phases of an envelope (rule R24). -/
inductive EnvPhase where
  | off
  | attack
  | decay
  | sustain
  | release
deriving DecidableEq, Repr, Inhabited

/-- An envelope unit (rule R24). -/
structure Env where
  reg : U32
  level : S16
  target : S16
  phase : EnvPhase
  counter : U16
  rate : U7
  step : BitVec 32
  inc : U16
  decreasing : Bool
  exponential : Bool
deriving DecidableEq, Repr, Inhabited

/-- A fresh envelope unit (rule R24's reset value). -/
def Env.fresh : Env where
  reg := 0
  level := 0
  target := 0
  phase := .off
  counter := 0
  rate := 0
  step := 0
  inc := 0
  decreasing := false
  exponential := false

/-- The reverb unit (rules R26 and R27): the register file, the delay memory as the cells that are not 0, and the
cursor. -/
structure Reverb where
  reg : Vector U16 numRvbRegs
  mem : SMap S16
  cursor : Nat
deriving DecidableEq, Repr

/-- A vibrato unit (rule R28). `depthTab` has a meaning only where `hasDepth` holds. -/
structure Vib where
  shape : List Byte
  hasDepth : Bool
  depthTab : List Flt
  phase : Flt
  depthPhase : Flt
  depth : Flt
deriving DecidableEq, Repr, Inhabited

/-- A fresh vibrato unit (rule R28's reset value). -/
def Vib.fresh (cfg : Config) : Vib where
  shape := cfg.vibDefaultShape
  hasDepth := false
  depthTab := []
  phase := .zero
  depthPhase := .zero
  depth := .zero

/-- A `Tone` record of the bank (rules R33 and R104). `highPriority` is read by no rule. -/
structure Tone where
  keyMin : U7
  keyMax : U7
  root : U7
  fine : Int
  sampleOffset : Nat
  adsrLo : U16
  adsrHi : U16
  volume : U7
  pan : U7
  pitchMult : Flt
  breath : Nat
  noise : Bool
  reverb : Bool
  useProgramPitch : Bool
  useModulation : Bool
  useProgramBreath : Bool
  highPriority : Bool
deriving DecidableEq, Repr, Inhabited

/-- The layering modes of a Program (rules R33 and R105). -/
inductive ProgMode where
  | split
  | layered
  | sfx
deriving DecidableEq, Repr, Inhabited

/-- A `Program` record of the bank (rules R33 and R105). `pan` is read by no rule. -/
structure Program where
  tones : List Tone
  mode : ProgMode
  volume : U7
  pan : U7
  pitchMult : Flt
  defaultBreath : Nat
deriving DecidableEq, Repr, Inhabited

/-- A `Voice` (rule R32). `sample` is the cache key of its DecodedSample, `none` for a noise voice; `tone` and
`program` are the (immutable) bank records themselves. -/
structure Voice where
  env : Env
  vib : Vib
  vibOn : Bool
  vibRate : Flt
  vibDrate : Flt
  sample : Option Nat
  pos : Flt
  base : Flt
  glide : Bool
  porta : Flt
  portaStep : Flt
  channel : Nat
  key : U7
  velocity : U7
  tone : Tone
  program : Program
  pitchMult : Flt
  active : Bool
  releasePending : Bool
  noiseAcc : Flt
  noiseSample : S16
  noiseState : Nat
deriving DecidableEq, Repr

/-- The output buffers (rule R34). -/
structure OutBuffers where
  dryL : List Flt
  dryR : List Flt
  wetL : List Flt
  wetR : List Flt
  outL : List Flt
  outR : List Flt
  pcmL : List S16
  pcmR : List S16
deriving DecidableEq, Repr

/-- The tables the host supplies for one breath index (rule R248). -/
structure BreathTable where
  shape : List Byte
  depthRaw : Option (List Byte)
deriving DecidableEq, Repr, Inhabited

/-- The port operands of one operation (rules R98 and R99). An operation reads its own ports and no others. -/
structure Ports where
  /-- `ADPCM.DECODE` -/
  buf : List Byte
  /-- `ADPCM.FETCH` -/
  offset : Nat
  /-- `ENV.LOAD` -/
  lo16 : U16
  /-- `ENV.LOAD` -/
  hi16 : U16
  /-- `RVB.STEP` -/
  inL : S16
  /-- `RVB.STEP` -/
  inR : S16
  /-- `RVB.STEPF` -/
  inFL : Flt
  /-- `RVB.STEPF` -/
  inFR : Flt
  /-- `VIB.CONFIG` -/
  shape : List Byte
  /-- `VIB.CONFIG` -/
  depthRaw : List Byte
  /-- `VIB.CONFIG` -/
  depth : Flt
  /-- `VIB.TICK` -/
  rate : Flt
  /-- `VIB.TICK` -/
  drate : Flt
deriving DecidableEq, Repr

/-- Port operands of an operation that has none: nothing supplied. -/
def Ports.idle : Ports where
  buf := []
  offset := 0
  lo16 := 0
  hi16 := 0
  inL := 0
  inR := 0
  inFL := .zero
  inFR := .zero
  shape := []
  depthRaw := []
  depth := .zero
  rate := .zero
  drate := .zero

/-- One operation as the host presents it: the command word and its port operands (rule R98). -/
structure Command where
  word : U32
  ports : Ports
deriving DecidableEq, Repr

/-- The result ports (rule R99): what the last operation produced. -/
inductive Result where
  /-- no result: the operation has no result port, or was ignored -/
  | none
  /-- `ADPCM.DECODE` -/
  | decoded (d : DecodedSample)
  /-- `ADPCM.FETCH`: the handle of a cache entry is its key -/
  | handle (offset : Nat)
  /-- `ENV.TICK` -/
  | level (v : S16) (p : EnvPhase)
  /-- `RVB.STEP` -/
  | frame (outL outR : S16)
  /-- `RVB.STEPF` -/
  | frameF (outL outR : Flt)
  /-- `VIB.TICK` -/
  | semis (x : Flt)
  /-- `MIX.RENDER`: the result ports are `out.dryL`, `out.dryR`, `out.wetL`, `out.wetR` -/
  | rendered
  /-- `MIX.BLEND`: the result ports are `out.outL`, `out.outR`, `out.pcmL`, `out.pcmR` -/
  | blended
deriving DecidableEq, Repr

/-- The whole state of the block. -/
structure State where
  /-- decode cache (R23): source offset to decoded sample -/
  cache : SMap DecodedSample
  /-- direct envelope unit (R35) -/
  envd : Env
  /-- reverb unit (R26, R27) -/
  rvb : Reverb
  /-- direct vibrato unit (R35) -/
  vibd : Vib
  /-- the channels (R29), `P_NUM_CHANNELS` of them, sixteen in this machine -/
  ch : List ChannelState
  /-- the voice list in order of creation (R29) -/
  voices : List Voice
  /-- output buffers (R34) -/
  out : OutBuffers
  /-- the bank, host-owned read-only input (R33, R105) -/
  bank : List Program
  /-- compressed buffers by sample offset, host-owned read-only input (R70) -/
  src : SMap (List Byte)
  /-- breath tables by breath index, host-owned read-only input (R248) -/
  breath : SMap BreathTable
  /-- port operands of the operation being executed (R98) -/
  ports : Ports
  /-- operations the host has presented and the block has not executed yet, first is next (R73) -/
  queue : List Command
  /-- result ports of the last operation (R99) -/
  result : Result
deriving DecidableEq, Repr

/-- The block raises no fault: "The block raises no exception, takes no trap and reports no error code" (rule R350),
so there is no reason a step could fault with. Nobody raises one; that is safe. -/
inductive Fault where
deriving DecidableEq, Repr

/-- Why a step has no meaning. -/
inductive Refusal where
  /-- `exec` rejects an instruction without a meaning by its mnemonic. No arm raises it. Safe: the machine stops. -/
  | notModelled (mnemonic : String)
  /-- The term is one of the four data formats (rules R91, R92, R94, R96), which is no operation (rules R98, R99);
  raised by the four `execFmt*` meanings, which no decoded command word reaches. Safe: the machine stops. -/
  | dataFormat
  /-- A reverb step with `samp(mBASE) >= P_RVB_MEM_SAMPLES` (rules R202 and R356 (c)); raised by `RVB.STEP`,
  `RVB.STEPF` and `MIX.BLEND`, never with the default parameters. Safe: the machine stops. -/
  | reverbSpanEmpty
deriving DecidableEq, Repr

/-- The reverb at reset (rules R27 and R39): registers at the preset, or all 0 where the model is given none; every
memory cell 0; the cursor at the base. -/
def Reverb.fresh (cfg : Config) : Reverb :=
  let reg := cfg.rvbPreset.getD (Vector.replicate numRvbRegs 0)
  { reg := reg, mem := [], cursor := samp cfg.rvbAddrScale reg[34] }

/-- All output buffers of length 0 (rule R34). -/
def OutBuffers.empty : OutBuffers where
  dryL := []
  dryR := []
  wetL := []
  wetR := []
  outL := []
  outR := []
  pcmL := []
  pcmR := []

/-- Reset under a configuration (rule R380): the table of rule R39, with the host's inputs not yet supplied and no
operation presented. -/
def State.resetWith (cfg : Config) : State where
  cache := []
  envd := Env.fresh
  rvb := Reverb.fresh cfg
  vibd := Vib.fresh cfg
  ch := List.replicate cfg.numChannels cfg.chDefault
  voices := []
  out := OutBuffers.empty
  bank := []
  src := []
  breath := []
  ports := Ports.idle
  queue := []
  result := .none

/-- The machine right after reset (rules R39 and R380). -/
def State.reset : State := State.resetWith Config.machine

end Sys2Proof.Machine
end

