-- ==== Sys2Proof/Machine/Ops.lean ====
section
/-! DEFINITION. The named operations over the block's memories and registers: finite maps (cache, compressed buffers,
breath tables), the reverb delay memory, the reverb register file, the channel vector, the read primitives `Src`,
`Pcm` and `Tab` of 20_memory.md rule R61, and the result ports.

Taking an exception and returning from one: the block has neither. "There is no trap entry: no state is saved, no mode
or mask changes" (rule R359) and "There is no trap return instruction" (rule R360), so there is no shared operation for
them here; a bad operand is ignored, which is `ignored` below (rule R352). -/

namespace Sys2Proof.Machine

open Host (Outcome)

/-! ### Finite maps -/

/-- The value at a key. -/
def SMap.find {α : Type} : SMap α → Nat → Option α
  | [], _ => none
  | (a, v) :: t, k => if a = k then some v else SMap.find t k

/-- Bind a key, keeping the keys in rising order. -/
def SMap.put {α : Type} : SMap α → Nat → α → SMap α
  | [], k, v => [(k, v)]
  | (a, w) :: t, k, v =>
    if k < a then (k, v) :: (a, w) :: t
    else if k = a then (k, v) :: t
    else (a, w) :: SMap.put t k v

/-- Unbind a key. -/
def SMap.del {α : Type} : SMap α → Nat → SMap α
  | [], _ => []
  | (a, w) :: t, k => if a = k then t else (a, w) :: SMap.del t k

/-- The canonical form: keys strictly rising. -/
abbrev SMap.wf {α : Type} (m : SMap α) : Prop := m.Pairwise (fun x y => x.1 < y.1)

/-! ### The reverb delay memory (rule R27): a cell that is not listed reads 0, its reset value -/

/-- One cell of the delay memory. -/
def Memory.read (m : SMap S16) (a : Nat) : S16 := (SMap.find m a).getD 0

/-- Write one cell; writing 0 removes the entry, so that equal memories are equal lists. -/
def Memory.write (m : SMap S16) (a : Nat) (v : S16) : SMap S16 := if v = 0 then SMap.del m a else SMap.put m a v

/-- The canonical form of the delay memory: addresses strictly rising and no cell that reads as an unlisted one. -/
abbrev Memory.wf (m : SMap S16) : Prop := SMap.wf m ∧ ∀ c ∈ m, c.2 ≠ 0

/-! ### Read primitives (rule R61). No rule evaluates them outside their domain; there they answer 0 -/

/-- `Src(buf, i)`. -/
def srcByte (buf : List Byte) (i : Nat) : Byte := buf.getD i 0

/-- `Pcm(s, i)`. -/
def pcmAt (d : DecodedSample) (i : Nat) : S16 := d.pcm.getD i 0

/-- `Tab(t, i)` of a table of FLT values. -/
def tabAt (t : List Flt) (i : Nat) : Flt := t.getD i .zero

/-- `fetch_src` (rule R70): an offset for which the host supplies nothing yields the empty buffer. -/
def fetchSrc (src : SMap (List Byte)) (offset : Nat) : List Byte := (SMap.find src offset).getD []

/-- `breath_table` (rule R248). -/
def breathTable (b : SMap BreathTable) (index : Nat) : BreathTable :=
  (SMap.find b index).getD { shape := [], depthRaw := none }

/-- The sample behind a voice's handle (rule R32); an absent entry, which no run reaches, is the empty sample. -/
def cacheSample (cache : SMap DecodedSample) (offset : Nat) : DecodedSample :=
  (SMap.find cache offset).getD { pcm := [], loopStart := 0, loopEnd := 0, looping := false }

/-! ### The reverb register file (rules R26 and R97) -/

/-- The 35 registers by name, in the order of rule R97. -/
inductive RvbReg where
  | dAPF1 | dAPF2 | vIIR | vCOMB1 | vCOMB2 | vCOMB3 | vCOMB4 | vWALL | vAPF1 | vAPF2
  | mLSAME | mRSAME | mLCOMB1 | mRCOMB1 | mLCOMB2 | mRCOMB2 | dLSAME | dRSAME | mLDIFF | mRDIFF
  | mLCOMB3 | mRCOMB3 | mLCOMB4 | mRCOMB4 | dLDIFF | dRDIFF | mLAPF1 | mRAPF1 | mLAPF2 | mRAPF2
  | vLIN | vRIN | vLOUT | vROUT | mBASE
deriving DecidableEq, Repr

/-- Index of a register (rule R97). -/
def RvbReg.index : RvbReg → Fin numRvbRegs
  | .dAPF1 => 0 | .dAPF2 => 1 | .vIIR => 2 | .vCOMB1 => 3 | .vCOMB2 => 4 | .vCOMB3 => 5 | .vCOMB4 => 6 | .vWALL => 7
  | .vAPF1 => 8 | .vAPF2 => 9 | .mLSAME => 10 | .mRSAME => 11 | .mLCOMB1 => 12 | .mRCOMB1 => 13 | .mLCOMB2 => 14
  | .mRCOMB2 => 15 | .dLSAME => 16 | .dRSAME => 17 | .mLDIFF => 18 | .mRDIFF => 19 | .mLCOMB3 => 20 | .mRCOMB3 => 21
  | .mLCOMB4 => 22 | .mRCOMB4 => 23 | .dLDIFF => 24 | .dRDIFF => 25 | .mLAPF1 => 26 | .mRAPF1 => 27 | .mLAPF2 => 28
  | .mRAPF2 => 29 | .vLIN => 30 | .vRIN => 31 | .vLOUT => 32 | .vROUT => 33 | .mBASE => 34

/-- A gain register, read as `sext_16`, a fraction of 32768 (rules R26 and R97). -/
def Reverb.gain (rv : Reverb) (r : RvbReg) : Int := (rv.reg[r.index]).toInt

/-- An offset register in samples, `samp` of its `zext_16` value (rules R26, R97 and R202). -/
def Reverb.offs (cfg : Config) (rv : Reverb) (r : RvbReg) : Nat := samp cfg.rvbAddrScale rv.reg[r.index]

/-! ### Outcomes -/

/-- The effect of an operation whose guard fails: nothing changes (rules R10, R352 and R359). -/
def ignored (s : State) : Outcome State Fault Refusal := .next s

/-- An operation's end with a result on its result port (rule R99). -/
def withResult (s : State) (r : Result) : Outcome State Fault Refusal := .next { s with result := r }

/-- A channel's record, `ch[k]` (rule R29). A number that is no channel, which no run reads, gives the default record. -/
def channelAt (ch : List ChannelState) (k : Nat) : ChannelState := ch.getD k chDefaults

/-- Replace one channel's record, `ch[k] <- c`. -/
def setChannel (s : State) (k : Nat) (c : ChannelState) : State := { s with ch := s.ch.set k c }

end Sys2Proof.Machine
end

