-- ==== Sys2Proof/Machine/Operands.lean ====
section
/-! DEFINITION. How operand values are read: the channel operand (rule R100), the register index of `RVB.WRITE`
(rule R200), the fields of the ADPCM block (rules R90 to R93), the rate byte of each phase (rule R96), and 7-bit and
byte values as FLT. The bit positions themselves are in Decode.lean. -/

namespace Sys2Proof.Machine

/-- `channel = a`, valid when it is below `P_NUM_CHANNELS`, that is `a <= 15` (rules R7 and R100). -/
def channelOf (cfg : Config) (a : BitVec 8) : Option Nat := if a.toNat < cfg.numChannels then some a.toNat else none

/-- Register index of `RVB.WRITE`, valid when `a <= 34` (rules R100 and R200). -/
def rvbIndexOf (a : BitVec 8) : Option (Fin numRvbRegs) :=
  if h : a.toNat < numRvbRegs then some ⟨a.toNat, h⟩ else none

/-- A 7-bit operand as FLT. -/
def u7ToF (cfg : Config) (v : U7) : Flt := cfg.num.ofNat v.toNat

/-- A byte as FLT. -/
def byteToF (cfg : Config) (b : Byte) : Flt := cfg.num.ofNat b.toNat

/-- `shift = 12 - shift_code` (rule R91). Codes 13 to 15 give a negative shift; their alternative reading is U9. -/
def adpcmShift (cfg : Config) (code : BitVec 4) : Int :=
  if 12 < code.toNat && !cfg.adpcmNegShiftRight then 3 else 12 - (code.toNat : Int)

/-- `filter = filter_code` if at most 4, else 0 (rules R91 and R102). -/
def adpcmFilter (code : BitVec 4) : Fin 5 := if h : code.toNat < 5 then ⟨code.toNat, h⟩ else 0

/-- Nibble `j` of a block: byte `2 + j div 2`, its low nibble for even `j`, sign-extended (rules R62 and R93). -/
def adpcmNibble (blk : List Byte) (j : Nat) : Int :=
  let b := srcByte blk (2 + j / 2)
  (if j % 2 = 0 then b.extractLsb' 0 4 else b.extractLsb' 4 4).toInt

/-- The rate byte of a phase (rules R96 and R161). -/
def phaseRate (reg : U32) : EnvPhase → U7
  | .off => 0
  | .attack => ratePack (adsrAttShift reg) (adsrAttStep reg)
  | .decay => ratePack ((adsrDecShift reg).setWidth 5) 0
  | .sustain => ratePack (adsrSusShift reg) (adsrSusStep reg)
  | .release => ratePack (adsrRelShift reg) 0

/-- The target level of a phase (rule R161). -/
def phaseTarget (reg : U32) : EnvPhase → Int
  | .off => 0
  | .attack => 32767
  | .decay => min (((adsrSusLevel reg).toNat + 1) * 0x800) 32767
  | .sustain => 0
  | .release => 0

/-- The rate mask of a phase (rules R161 and R162). -/
def phaseMask (cfg : Config) : EnvPhase → Nat
  | .off => 0
  | .attack => cfg.envMaskAS
  | .decay => cfg.envMaskDR
  | .sustain => cfg.envMaskAS
  | .release => cfg.envMaskDR

end Sys2Proof.Machine
end

