-- ==== Sys2Proof/Machine/Flags.lean ====
section
/-! DEFINITION. The flags of the block. There are no condition codes (10_state.md rule R37): each flag is set and
read only by the rule that names it. Here stand the ones computed from other values: an envelope's `decreasing` and
`exponential`, a sample's `looping`, a controller switch, and when a voice's glide ends. -/

namespace Sys2Proof.Machine

/-- `decreasing` of a phase (rule R161). -/
def phaseDecreasing (reg : U32) : EnvPhase → Bool
  | .off => false
  | .attack => false
  | .decay => true
  | .sustain => adsrSusDir reg
  | .release => true

/-- `exponential` of a phase (rule R161). -/
def phaseExponential (cfg : Config) (reg : U32) : EnvPhase → Bool
  | .off => false
  | .attack => adsrAttExp reg
  | .decay => cfg.envDecayExp
  | .sustain => adsrSusExp reg
  | .release => adsrRelExp reg

/-- Whether a step's sign is flipped (rule R162). -/
def stepFlipped (cfg : Config) (dec exp : Bool) : Bool := (dec ^^ cfg.envPhaseInvert) || (dec && exp)

/-- `looping` after a block with these flags: `loop_en` counts only with `end` (rules R92 and R133). -/
def loopingAfter (flags : Byte) (looping : Bool) : Bool := looping || (flagEnd flags && flagLoopEn flags)

/-- A controller switch is on from 64 (rule R278). -/
def switchOn (value : U7) : Bool := decide (64 ≤ value.toNat)

/-- Whether a portamento ramp has reached or passed its target (rule R282, step 2). -/
def glideDone (cfg : Config) (porta portaStep : Flt) : Bool :=
  !cfg.num.isFinite porta || portaStep.eq .one || (Flt.one.lt portaStep && Flt.one.le porta)
    || (portaStep.lt .one && porta.le .one)

end Sys2Proof.Machine
end

