-- ==== Sys2Proof/Machine/Adpcm.lean ====
section
/-! DEFINITION. The ADPCM decoder and the decode cache: 40_adpcm.md rules R130 to R137. -/

namespace Sys2Proof.Machine

open Host (Outcome)

/-- `Predict(filter, h1, h2)` (rule R131). -/
def predict (cfg : Config) (filter : Fin 5) (h1 h2 : S16) : Int :=
  asr (h1.toInt * cfg.adpcmK0[filter] + h2.toInt * cfg.adpcmK1[filter] + cfg.adpcmPredRound) cfg.adpcmPredShift

/-- The shifted nibble `u` of rule R130: left for `shift >= 0`, arithmetic right otherwise. -/
def shiftNibble (t shift : Int) : Int := if 0 ≤ shift then shl t shift.toNat else asr t (-shift).toNat

/-- The output sample of `ADPCM.NIB` (rule R130); the new history is this sample and the old `h1`. -/
def adpcmNib (cfg : Config) (t shift : Int) (filter : Fin 5) (h1 h2 : S16) : S16 :=
  toS16 (shiftNibble t shift + predict cfg filter h1 h2)

/-- What a decode carries from block to block (rule R21). The emitted count is `pcm.length`. -/
structure DecoderState where
  h1 : S16
  h2 : S16
  pcm : List S16
  loopStart : Nat
  loopSeen : Bool
  looping : Bool
  ended : Bool
deriving DecidableEq, Repr

/-- The start of every decode (rule R21). -/
def DecoderState.start : DecoderState where
  h1 := 0
  h2 := 0
  pcm := []
  loopStart := 0
  loopSeen := false
  looping := false
  ended := false

/-- The `k` nibbles of a block from nibble `j` on: the samples and the history behind them (rule R132). -/
def adpcmNibbles (cfg : Config) (blk : List Byte) (shift : Int) (filter : Fin 5) :
    Nat → Nat → S16 → S16 → List S16 × S16 × S16
  | 0, _, h1, h2 => ([], h1, h2)
  | k + 1, j, h1, h2 =>
    let x := adpcmNib cfg (adpcmNibble blk j) shift filter h1 h2
    let rest := adpcmNibbles cfg blk shift filter k (j + 1) x h1
    (x :: rest.1, rest.2)

/-- `ADPCM.BLOCK` on the block at the head of `blk` (rule R132). -/
def adpcmBlock (cfg : Config) (blk : List Byte) (h1 h2 : S16) : List S16 × S16 × S16 :=
  let hdr := srcByte blk 0
  adpcmNibbles cfg blk (adpcmShift cfg (hdrShiftCode hdr)) (adpcmFilter (hdrFilterCode hdr)) cfg.adpcmBlockSamples 0 h1 h2

/-- Loop-start bookkeeping when a block's flags are seen, before its samples (rule R134): the last marker wins (or the
first, the other value of U1). -/
def loopStartAfter (cfg : Config) (flags : Byte) (d : DecoderState) : Nat :=
  if flagLoopStart flags && (cfg.adpcmLoopLastWins || !d.loopSeen) then d.pcm.length else d.loopStart

/-- One round of the block loop of `ADPCM.DECODE` (rule R133). -/
def decodeBlock (cfg : Config) (blk : List Byte) (d : DecoderState) : DecoderState :=
  let flags := srcByte blk 1
  let r := adpcmBlock cfg blk d.h1 d.h2
  { h1 := r.2.1
    h2 := r.2.2
    pcm := d.pcm ++ r.1
    loopStart := loopStartAfter cfg flags d
    loopSeen := d.loopSeen || flagLoopStart flags
    looping := loopingAfter flags d.looping
    ended := flagEnd flags }

/-- The block loop of `ADPCM.DECODE`: up to `n` whole blocks, none after one with the end flag (rule R133). -/
def decodeBlocks (cfg : Config) : Nat → List Byte → DecoderState → DecoderState
  | 0, _, d => d
  | n + 1, buf, d =>
    let d' := decodeBlock cfg buf d
    if d'.ended then d' else decodeBlocks cfg n (buf.drop cfg.adpcmBlockBytes) d'

/-- `ADPCM.DECODE(buf)` (rule R133), with the input cap of rule R135. -/
def adpcmDecode (cfg : Config) (buf : List Byte) : DecodedSample :=
  let n := min buf.length cfg.adpcmMaxInput / cfg.adpcmBlockBytes
  let d := decodeBlocks cfg n buf .start
  { pcm := d.pcm, loopStart := d.loopStart, loopEnd := d.pcm.length, looping := d.looping }

/-- The cache after `ADPCM.FETCH(offset)` (rule R137): an entry, once made, is never replaced (rule R23). -/
def adpcmFetch (cfg : Config) (src : SMap (List Byte)) (cache : SMap DecodedSample) (offset : Nat) : SMap DecodedSample :=
  match SMap.find cache offset with
  | some _ => cache
  | none => SMap.put cache offset (adpcmDecode cfg (fetchSrc src offset))

/-- `ADPCM.DECODE` (rule R133): a pure function of its port operand; it does not touch the cache. -/
def execAdpcmDecode (s : State) : Outcome State Fault Refusal :=
  withResult s (.decoded (adpcmDecode Config.machine s.ports.buf))

/-- `ADPCM.FETCH` (rule R137). -/
def execAdpcmFetch (s : State) : Outcome State Fault Refusal :=
  withResult { s with cache := adpcmFetch Config.machine s.src s.cache s.ports.offset } (.handle s.ports.offset)

end Sys2Proof.Machine
end

