-- ==== Sys2Proof/Machine/Envelope.lean ====
section
/-! DEFINITION. The ADSR envelope state machine: 41_envelope.md rules R160 to R167. -/

namespace Sys2Proof.Machine

open Host (Outcome)

/-- `Neg(x)` of rule R162. -/
def negStep (cfg : Config) (x : Int) : Int :=
  match cfg.envStepNeg with
  | .negate => -x
  | .complement => -x - 1

/-- The step of `RateParams` (rule R162). -/
def rateStep (cfg : Config) (rate : Nat) (dec exp : Bool) : Int :=
  let base : Int := 7 - (rate % 4 : Nat)
  let signedBase := if stepFlipped cfg dec exp then negStep cfg base else base
  if rate < 44 then shl signedBase (11 - rate / 4) else signedBase

/-- The increment of `RateParams` (rule R162): the floor of 1 does not hold where all mask bits are set in the rate. -/
def rateInc (cfg : Config) (rate mask : Nat) : Nat :=
  if rate < 48 then cfg.envIncBase
  else
    let inc := cfg.envIncBase / 2 ^ (rate / 4 - 11)
    if rate &&& mask = mask then inc else max inc 1

/-- `SetPhase(e, p)` (rule R161). -/
def Env.setPhase (cfg : Config) (e : Env) (p : EnvPhase) : Env :=
  let rate := phaseRate e.reg p
  let dec := phaseDecreasing e.reg p
  let exp := phaseExponential cfg e.reg p
  { e with
    phase := p
    counter := 0
    rate := rate
    decreasing := dec
    exponential := exp
    target := toS16 (phaseTarget e.reg p)
    step := if p = .off then 0 else BitVec.ofInt 32 (rateStep cfg rate.toNat dec exp)
    inc := if p = .off then 0 else BitVec.ofNat 16 (rateInc cfg rate.toNat (phaseMask cfg p)) }

/-- `ENV.LOAD(lo16, hi16)` on a unit (rule R160). -/
def Env.load (cfg : Config) (e : Env) (lo16 hi16 : U16) : Env :=
  Env.setPhase cfg { e with reg := adsrPack lo16 hi16, level := 0 } .off

/-- `ENV.KEYON` on a unit (rule R163). -/
def Env.keyOn (cfg : Config) (e : Env) : Env := Env.setPhase cfg { e with level := 0 } .attack

/-- `ENV.KEYOFF` on a unit (rule R164). -/
def Env.keyOff (cfg : Config) (e : Env) : Env :=
  if e.phase = .off ∨ e.phase = .release then e else Env.setPhase cfg e .release

/-- The step this tick would apply: scaled by the level in an exponential fall, halved in the slow end of an
exponential rise at a rate below the band (rule R165). -/
def tickStep (cfg : Config) (e : Env) : Int :=
  if e.exponential then
    if e.decreasing then asr (e.step.toInt * e.level.toInt) 15
    else if cfg.envExpThreshold ≤ e.level.toInt ∧ e.rate.toNat < cfg.envBand then asr e.step.toInt cfg.envSlowShift
    else e.step.toInt
  else e.step.toInt

/-- The increment of this tick: halved in the slow end of an exponential rise at a rate from the band on (rule R165). -/
def tickInc (cfg : Config) (e : Env) : Nat :=
  if e.exponential ∧ ¬ e.decreasing ∧ cfg.envExpThreshold ≤ e.level.toInt ∧ ¬ e.rate.toNat < cfg.envBand then
    e.inc.toNat / 2 ^ cfg.envSlowShift
  else e.inc.toNat

/-- The clamp of a level after a step (rule R165). -/
def clampLevel (cfg : Config) (decreasing : Bool) (n : Int) : Int :=
  if !decreasing then clamp n (-32768) 32767
  else if cfg.envPhaseInvert then clamp n (-32768) 0
  else max n 0

/-- Counter and level of a tick, before the phase sequencing (rule R165). -/
def Env.applyStep (cfg : Config) (e : Env) : Env :=
  let c := e.counter.toNat + tickInc cfg e
  if cfg.envCtrThreshold ≤ c then
    { e with counter := 0, level := toS16 (clampLevel cfg e.decreasing (e.level.toInt + tickStep cfg e)) }
  else { e with counter := BitVec.ofNat 16 c }

/-- Whether the level has reached the target in the phase's direction (rule R166). -/
def Env.reached (e : Env) : Bool :=
  if e.decreasing then decide (e.level.toInt ≤ e.target.toInt) else decide (e.target.toInt ≤ e.level.toInt)

/-- `Advance(e)`, the phase sequencing (rule R166). -/
def Env.advance (cfg : Config) (e : Env) : Env :=
  match e.phase with
  | .off => e
  | .sustain => e
  | .attack => if e.reached then Env.setPhase cfg e .decay else e
  | .decay => if e.reached then Env.setPhase cfg e .sustain else e
  | .release => if e.reached then Env.setPhase cfg e .off else e

/-- `ENV.TICK` on a unit (rules R165 and R167). -/
def Env.tick (cfg : Config) (e : Env) : Env :=
  if e.phase = .off then e else Env.advance cfg (Env.applyStep cfg e)

/-- `ENV.LOAD` on the direct unit (rules R35 and R160). -/
def execEnvLoad (s : State) : Outcome State Fault Refusal :=
  .next { s with envd := Env.load Config.machine s.envd s.ports.lo16 s.ports.hi16 }

/-- `ENV.KEYON` on the direct unit (rules R35 and R163). -/
def execEnvKeyon (s : State) : Outcome State Fault Refusal :=
  .next { s with envd := Env.keyOn Config.machine s.envd }

/-- `ENV.KEYOFF` on the direct unit (rules R35 and R164). -/
def execEnvKeyoff (s : State) : Outcome State Fault Refusal :=
  .next { s with envd := Env.keyOff Config.machine s.envd }

/-- `ENV.TICK` on the direct unit (rules R35 and R165). -/
def execEnvTick (s : State) : Outcome State Fault Refusal :=
  let e := Env.tick Config.machine s.envd
  withResult { s with envd := e } (.level e.level e.phase)

end Sys2Proof.Machine
end

