-- ==== Sys2Proof/Machine/Formats.lean ====
section
/-! DEFINITION. The four data formats as terms of `Instr`. A data format is bytes an operation reads, not an
operation: "Every operation is presented to the block as one 32-bit command word" in the one format CMD (rule R98), and
the opcode map of rule R99 has no row for a format. What the spec gives a format is its fields, which Decode.lean reads
and `ADPCM.DECODE`, `ENV.LOAD` and every phase change use. Executing one has no meaning and is refused by name. -/

namespace Sys2Proof.Machine

open Host (Outcome)

/-- `FMT.ADPCM_HDR` (rule R91): a data format, no operation. -/
def execFmtAdpcmHdr (_s : State) : Outcome State Fault Refusal := .refused .dataFormat

/-- `FMT.ADPCM_FLAGS` (rule R92): a data format, no operation. -/
def execFmtAdpcmFlags (_s : State) : Outcome State Fault Refusal := .refused .dataFormat

/-- `FMT.ADSR` (rule R94): a data format, no operation. -/
def execFmtAdsr (_s : State) : Outcome State Fault Refusal := .refused .dataFormat

/-- `FMT.RATE` (rule R96): a data format, no operation. -/
def execFmtRate (_s : State) : Outcome State Fault Refusal := .refused .dataFormat

end Sys2Proof.Machine
end

