-- ==== Sys2Proof/Machine/Vibrato.lean ====
section
/-! DEFINITION. The vibrato phase accumulator: 43_vibrato.md rules R240 to R246. -/

namespace Sys2Proof.Machine

open Host (Outcome)

/-- The circular 3-tap mean at entry `i` of the raw bytes (rule R242). -/
def smoothMean (cfg : Config) (raw : List Byte) (i : Nat) : Flt :=
  let n := cfg.num
  let m := raw.length
  let at' (j : Nat) : Flt := byteToF cfg (raw.getD (j % m) 0)
  n.div (n.add (n.add (at' (i + m - 1)) (at' i)) (at' (i + 1))) (n.ofNat 3)

/-- `Smooth(raw)` (rule R242): the means of the raw bytes, then the last entry replaced by the first. -/
def smooth (cfg : Config) (raw : List Byte) : List Flt :=
  let tab := (List.range raw.length).map (smoothMean cfg raw)
  tab.set (raw.length - 1) (tabAt tab 0)

/-- `|shape[i] - P_VIB_NEUTRAL|` (rule R243). -/
def neutralDist (cfg : Config) (b : Byte) : Nat := ((b.toNat : Int) - cfg.vibNeutral).natAbs

/-- The search of rule R243: entries from index `i` on, with the best index and distance so far. -/
def neutralFrom (cfg : Config) : List Byte → Nat → Nat → Nat → Nat
  | [], _, best, _ => best
  | b :: t, i, best, dist =>
    if neutralDist cfg b < dist then neutralFrom cfg t (i + 1) i (neutralDist cfg b)
    else neutralFrom cfg t (i + 1) best dist

/-- `NeutralIndex(shape)` (rule R243): the entry nearest the neutral value, the lowest index among equals. -/
def neutralIndex (cfg : Config) : List Byte → Nat
  | [] => 0
  | b :: t => neutralFrom cfg t 1 0 (neutralDist cfg b)

/-- `VIB.CONFIG(flags, shape, depth_raw, depth)` on a unit (rule R240); a table of length 0 counts as not supplied. -/
def Vib.config (cfg : Config) (v : Vib) (hasShape hasDepth : Bool) (shape depthRaw : List Byte) (depth : Flt) : Vib :=
  let sh := if hasShape && decide (1 ≤ shape.length) then shape else cfg.vibDefaultShape
  let dep := hasDepth && decide (1 ≤ depthRaw.length)
  { shape := sh
    hasDepth := dep
    depthTab := if dep then smooth cfg depthRaw else v.depthTab
    phase := cfg.num.ofNat (neutralIndex cfg sh)
    depthPhase := .zero
    depth := if cfg.num.isFinite depth then depth else .zero }

/-- `Wrap(p, L)` (rule R244), with its guard. -/
def wrapPhase (cfg : Config) (p : Flt) (len : Nat) : Flt :=
  let n := cfg.num
  let l := n.ofNat len
  let q := n.sub p (n.mul l (n.floor (n.div p l)))
  if !n.isFinite q || q.lt .zero || l.le q then .zero else q

/-- `Interp(t, p)` (rule R245): linear, the table circular. -/
def interp (cfg : Config) (t : List Flt) (p : Flt) : Flt :=
  let n := cfg.num
  let i0 := (n.floorInt p).toNat
  let f := n.sub p (n.ofNat i0)
  let i1 := (i0 + 1) % t.length
  n.add (tabAt t i0) (n.mul (n.sub (tabAt t i1) (tabAt t i0)) f)

/-- The phases after a tick (rule R244). -/
def Vib.advance (cfg : Config) (v : Vib) (rate drate : Flt) : Vib :=
  { v with
    phase := wrapPhase cfg (cfg.num.add v.phase rate) v.shape.length
    depthPhase := if v.hasDepth then wrapPhase cfg (cfg.num.add v.depthPhase drate) v.depthTab.length else v.depthPhase }

/-- `depth_scale` (rules R244 and R246). -/
def Vib.scale (cfg : Config) (v : Vib) : Flt :=
  if v.hasDepth then cfg.num.div (interp cfg v.depthTab v.depthPhase) (cfg.num.ofNat 255) else .one

/-- The output in semitones at the current phases (rule R246). -/
def Vib.output (cfg : Config) (v : Vib) : Flt :=
  let n := cfg.num
  let x := interp cfg (v.shape.map (byteToF cfg)) v.phase
  n.mul (n.mul (n.mul (n.sub (n.div x (n.ofNat 255)) .half) (n.ofNat 2)) v.depth) (v.scale cfg)

/-- `VIB.TICK(rate, drate)` on a unit (rule R244): advance, then sample. -/
def Vib.tick (cfg : Config) (v : Vib) (rate drate : Flt) : Vib × Flt :=
  let v' := v.advance cfg rate drate
  (v', v'.output cfg)

/-- `VIB.CONFIG` on the direct unit (rules R35 and R240). -/
def execVibConfig (hasShape hasDepth : Bool) (s : State) : Outcome State Fault Refusal :=
  .next { s with
    vibd := s.vibd.config Config.machine hasShape hasDepth s.ports.shape s.ports.depthRaw s.ports.depth }

/-- `VIB.TICK` on the direct unit (rules R35 and R244). -/
def execVibTick (s : State) : Outcome State Fault Refusal :=
  let r := s.vibd.tick Config.machine s.ports.rate s.ports.drate
  withResult { s with vibd := r.1 } (.semis r.2)

end Sys2Proof.Machine
end

