-- ==== Sys2Proof/Machine/Voice.lean ====
section
/-! DEFINITION. Voices: how one is built (44_mixer.md rules R271 to R274), how it is keyed off (rules R275 and R279),
and how it produces one output sample (rules R282 to R287). -/

namespace Sys2Proof.Machine

/-! ### Building a voice -/

/-- A Tone's key range contains the key, both ends inclusive (rule R271). -/
def Tone.contains (t : Tone) (key : U7) : Bool := decide (t.keyMin.toNat ≤ key.toNat) && decide (key.toNat ≤ t.keyMax.toNat)

/-- `Match(P, key)` (rule R271): in list order, all of them for a layered Program, the first for a split one; an SFX
Program is never triggered by a note-on (rule R270). -/
def matchTones (p : Program) (key : U7) : List Tone :=
  match p.mode with
  | .split => (p.tones.filter (fun t => t.contains key)).take 1
  | .layered => p.tones.filter (fun t => t.contains key)
  | .sfx => []

/-- The base playback ratio of rule R272, `2^((key - (root - fine/20)) / 12)`. -/
def baseRatio (cfg : Config) (key root : U7) (fine : Int) : Flt :=
  let n := cfg.num
  n.exp2 (n.div (n.sub (u7ToF cfg key) (n.sub (u7ToF cfg root) (n.div (n.ofInt fine) (n.ofNat 20)))) (n.ofNat 12))

/-- The glide fields of `PortaSetup` (rule R273). -/
structure Glide where
  glide : Bool
  porta : Flt
  portaStep : Flt
deriving DecidableEq, Repr

/-- `PortaSetup(v, c, key)` (rule R273). -/
def portaSetup (cfg : Config) (c : ChannelState) (key : U7) : Glide :=
  let n := cfg.num
  let samples := cfg.portaSamples c.portaTime
  if c.portaOn && c.hasLast && !(c.lastPitch.eq (u7ToF cfg key)) && decide (1 ≤ samples) then
    let d := n.div (n.sub c.lastPitch (u7ToF cfg key)) (n.ofNat 12)
    { glide := true, porta := n.exp2 d, portaStep := n.exp2 (n.div (n.sub .zero d) (n.ofNat samples)) }
  else { glide := false, porta := .one, portaStep := .one }

/-- The phase advance of a table of `len` entries at `hz` (rule R274). -/
def tableRate (cfg : Config) (len : Nat) (hz : Flt) : Flt :=
  cfg.num.div (cfg.num.mul (cfg.num.ofNat len) hz) (cfg.num.ofNat cfg.sampleRate)

/-- The vibrato fields of `VibSetup` (rule R274). -/
structure VibFields where
  vib : Vib
  vibOn : Bool
  vibRate : Flt
  vibDrate : Flt
deriving DecidableEq, Repr

/-- `VibSetup(v, c, P, T)` (rule R274). -/
def vibSetup (cfg : Config) (breath : SMap BreathTable) (c : ChannelState) (p : Program) (t : Tone) : VibFields :=
  if t.useModulation then
    let b := breathTable breath (if t.useProgramBreath then p.defaultBreath else t.breath)
    let v := (Vib.fresh cfg).config cfg true b.depthRaw.isSome b.shape (b.depthRaw.getD []) (cfg.vibDepthSemis c.modDepth)
    let hz := cfg.vibRateHz c.vibRate
    { vib := v
      vibOn := true
      vibRate := tableRate cfg v.shape.length hz
      vibDrate := if v.hasDepth then tableRate cfg v.depthTab.length hz else .zero }
  else { vib := Vib.fresh cfg, vibOn := false, vibRate := .zero, vibDrate := .zero }

/-- `NewVoice(channel, key, velocity, P, T)` but for the cache entry it fetches (rule R272). -/
def newVoice (cfg : Config) (breath : SMap BreathTable) (channel : Nat) (c : ChannelState) (key velocity : U7)
    (p : Program) (t : Tone) : Voice :=
  let g := portaSetup cfg c key
  let m := vibSetup cfg breath c p t
  { env := Env.keyOn cfg (Env.load cfg Env.fresh t.adsrLo t.adsrHi)
    vib := m.vib
    vibOn := m.vibOn
    vibRate := m.vibRate
    vibDrate := m.vibDrate
    sample := if t.noise then none else some t.sampleOffset
    pos := .zero
    base := baseRatio cfg key t.root t.fine
    glide := g.glide
    porta := g.porta
    portaStep := g.portaStep
    channel := channel
    key := key
    velocity := velocity
    tone := t
    program := p
    pitchMult := if t.useProgramPitch then p.pitchMult else t.pitchMult
    active := true
    releasePending := false
    noiseAcc := .zero
    noiseSample := 0
    noiseState := cfg.noiseInit }

/-- The cache after `NewVoice` for a Tone: a noise Tone fetches nothing (rule R272). -/
def newVoiceCache (cfg : Config) (src : SMap (List Byte)) (cache : SMap DecodedSample) (t : Tone) : SMap DecodedSample :=
  if t.noise then cache else adpcmFetch cfg src cache t.sampleOffset

/-! ### Keying a voice off -/

/-- Rule R275 on one voice. -/
def Voice.noteOff (cfg : Config) (sustain : Bool) (v : Voice) : Voice :=
  if sustain then { v with releasePending := true } else { v with env := Env.keyOff cfg v.env }

/-- Rule R279 on one voice: a deferred KeyOff fires. -/
def Voice.fireRelease (cfg : Config) (v : Voice) : Voice :=
  { v with releasePending := false, env := Env.keyOff cfg v.env }

/-! ### One output sample of one voice -/

/-- One frame of the mixer's four accumulators (rule R287). -/
structure Frame where
  dryL : Flt
  dryR : Flt
  wetL : Flt
  wetR : Flt
deriving DecidableEq, Repr

/-- The accumulators at the start of a sample (rule R281). -/
def Frame.silent : Frame := { dryL := .zero, dryR := .zero, wetL := .zero, wetR := .zero }

/-- Portamento step of a voice (rule R282, step 2). -/
def Voice.glideStep (cfg : Config) (v : Voice) : Voice :=
  if v.glide then
    let p := cfg.num.mul v.porta v.portaStep
    if glideDone cfg p v.portaStep then { v with porta := .one, glide := false } else { v with porta := p }
  else v

/-- Vibrato step of a voice and its ratio (rule R282, step 3). -/
def Voice.vibStep (cfg : Config) (v : Voice) : Voice × Flt :=
  if v.vibOn then
    let r := v.vib.tick cfg v.vibRate v.vibDrate
    ({ v with vib := r.1 }, cfg.num.exp2 (cfg.num.div r.2 (cfg.num.ofNat 12)))
  else (v, .one)

/-- The playback increment (rule R282, step 4), with the guard against a non-finite or negative product. -/
def playbackIncr (cfg : Config) (base porta vr bend lfo : Flt) : Flt :=
  let n := cfg.num
  let x := n.mul (n.mul (n.mul (n.mul base porta) vr) bend) lfo
  if !n.isFinite x || x.lt .zero then .one else x

/-- The position after a fetch, wrapped into the loop of a looping sample (rule R283). -/
def wrapPos (cfg : Config) (d : DecodedSample) (pos : Flt) : Flt :=
  let n := cfg.num
  let first := n.ofNat d.loopStart
  let last := n.ofNat d.loopEnd
  if d.looping && last.le pos then
    let span := n.ofNat (d.loopEnd - d.loopStart)
    let past := n.sub pos last
    let q := n.add first (n.sub past (n.mul span (n.floor (n.div past span))))
    if first.le q && q.lt last then q else first
  else pos

/-- Whether a pitched voice ends at this fetch: its sample is empty, or a non-looping one is overrun (rule R283). -/
def fetchEnds (cfg : Config) (d : DecodedSample) (pos : Flt) : Bool :=
  d.pcm.isEmpty || (!d.looping && decide ((d.pcm.length : Int) ≤ cfg.num.floorInt pos))

/-- The interpolated sample at a position (rule R283). -/
def fetchAt (cfg : Config) (d : DecodedSample) (pos : Flt) : Flt :=
  let n := cfg.num
  let i0 := (n.floorInt pos).toNat
  let f := n.sub pos (n.ofNat i0)
  let i1 := if d.looping && decide (d.loopEnd ≤ i0 + 1) then d.loopStart else i0 + 1
  let s0 := n.ofInt (pcmAt d i0).toInt
  let s1 := n.ofInt (if i1 < d.pcm.length then (pcmAt d i1).toInt else 0)
  n.div (n.add s0 (n.mul (n.sub s1 s0) f)) (n.ofNat 32768)

/-- `PitchedSample(v, incr)` (rule R283): the voice after the fetch, and the sample. -/
def Voice.pitchedSample (cfg : Config) (d : DecodedSample) (v : Voice) (incr : Flt) : Voice × Flt :=
  if fetchEnds cfg d v.pos then ({ v with active := false }, .zero)
  else ({ v with pos := wrapPos cfg d (cfg.num.add v.pos incr) }, fetchAt cfg d v.pos)

/-- `NoiseSample(v, incr)` (rule R284). -/
def Voice.noiseStep (cfg : Config) (v : Voice) (incr : Flt) : Voice × Flt :=
  let n := cfg.num
  let acc := n.add v.noiseAcc incr
  if Flt.one.le acc then
    let g := cfg.noiseNext v.noiseState
    ({ v with noiseAcc := n.sub acc (n.floor acc), noiseSample := g.1, noiseState := g.2 }, n.ofS16 g.1)
  else ({ v with noiseAcc := acc }, n.ofS16 v.noiseSample)

/-- The sample of a voice (rule R282, step 5). -/
def Voice.fetch (cfg : Config) (cache : SMap DecodedSample) (v : Voice) (incr : Flt) : Voice × Flt :=
  match v.sample with
  | none => v.noiseStep cfg incr
  | some o => v.pitchedSample cfg (cacheSample cache o) incr

/-- A 7-bit value as a factor, `ofInt(x) / 127` (rule R285). -/
def over127 (cfg : Config) (x : U7) : Flt := cfg.num.div (u7ToF cfg x) (cfg.num.ofNat 127)

/-- `Amp(v, c)` (rule R285), with the envelope gain of rule R168. -/
def Voice.amp (cfg : Config) (v : Voice) (c : ChannelState) : Flt :=
  let n := cfg.num
  let gain := n.div (n.ofInt v.env.level.toInt) (n.ofNat cfg.envNorm)
  [v.velocity, v.tone.volume, v.program.volume, c.volume, c.expression].foldl (fun a x => n.mul a (over127 cfg x)) gain

/-- The pan position of `PanGains` (rule R286): the channel pan is an offset around 64. -/
def panPos (tonePan chanPan : U7) : Int := clamp ((tonePan.toNat : Int) + ((chanPan.toNat : Int) - 64)) 0 127

/-- The pan position over 127 (rule R286). -/
def panFrac (cfg : Config) (tonePan chanPan : U7) : Flt :=
  cfg.num.div (cfg.num.ofInt (panPos tonePan chanPan)) (cfg.num.ofNat 127)

/-- `gL` of `PanGains` (rule R286). -/
def panGainL (cfg : Config) (tonePan chanPan : U7) : Flt := cfg.num.sqrt (cfg.num.sub .one (panFrac cfg tonePan chanPan))

/-- `gR` of `PanGains` (rule R286). -/
def panGainR (cfg : Config) (tonePan chanPan : U7) : Flt := cfg.num.sqrt (panFrac cfg tonePan chanPan)

/-- `Accumulate(i, l, r, send, depth)` on the frame of sample `i` (rule R287). -/
def Frame.accumulate (cfg : Config) (a : Frame) (l r : Flt) (send : Bool) (depth : U7) : Frame :=
  let n := cfg.num
  let w := over127 cfg depth
  { dryL := n.add a.dryL l
    dryR := n.add a.dryR r
    wetL := if send then n.add a.wetL (n.mul l w) else a.wetL
    wetR := if send then n.add a.wetR (n.mul r w) else a.wetR }

/-- The scaled sample `y` of rule R282, step 6, with its guard. -/
def scaled (cfg : Config) (x amp : Flt) : Flt :=
  let y := cfg.num.mul x amp
  if cfg.num.isFinite y then y else .zero

/-- `VoiceStep(v, i, lfo)` of an active voice (rule R282): the voice after it, and the frame with its contribution. -/
def Voice.step (cfg : Config) (cache : SMap DecodedSample) (c : ChannelState) (lfo : Flt) (v : Voice) (acc : Frame) :
    Voice × Frame :=
  let v1 := { v with env := Env.tick cfg v.env }
  if v1.env.phase = .off then ({ v1 with active := false }, acc)
  else
    let v2 := v1.glideStep cfg
    let v3 := v2.vibStep cfg
    let v4 := v3.1.fetch cfg cache (playbackIncr cfg v.base v2.porta v3.2 c.bend lfo)
    if v4.1.active then
      let y := scaled cfg v4.2 (v4.1.amp cfg c)
      let l := cfg.num.mul y (panGainL cfg v.tone.pan c.pan)
      let r := cfg.num.mul y (panGainR cfg v.tone.pan c.pan)
      (v4.1, acc.accumulate cfg l r v.tone.reverb c.reverb)
    else (v4.1, acc)

end Sys2Proof.Machine
end

