-- ==== Sys2Proof/Machine/Mixer.lean ====
section
/-! DEFINITION. The mixer's event operations: note on and off, program, bend and controller changes
(44_mixer.md rules R270 and R275 to R280). A channel operand above 15 is ignored (rule R352). -/

namespace Sys2Proof.Machine

open Host (Outcome)

/-! ### Note on -/

/-- The cache and the voice list after `NewVoice` for each matched Tone, in order (rule R270). -/
def addVoices (cfg : Config) (src : SMap (List Byte)) (breath : SMap BreathTable) (channel : Nat)
    (c : ChannelState) (key velocity : U7) (p : Program) :
    List Tone → SMap DecodedSample → List Voice → SMap DecodedSample × List Voice
  | [], cache, vs => (cache, vs)
  | t :: ts, cache, vs =>
    addVoices cfg src breath channel c key velocity p ts (newVoiceCache cfg src cache t)
      (vs ++ [newVoice cfg breath channel c key velocity p t])

/-- `MIX.NOTE_ON` on a valid channel whose Program is `p` (rule R270). -/
def noteOnProgram (cfg : Config) (s : State) (k : Nat) (key velocity : U7) (p : Program) : State :=
  let c := channelAt s.ch k
  let m := matchTones p key
  let r := addVoices cfg s.src s.breath k c key velocity p m s.cache s.voices
  let s' := { s with cache := r.1, voices := r.2 }
  if m.isEmpty then s' else setChannel s' k { c with lastPitch := u7ToF cfg key, hasLast := true }

/-- `MIX.NOTE_ON` on a valid channel (rule R270): a program number beyond the bank is ignored. -/
def noteOn (cfg : Config) (s : State) (k : Nat) (key velocity : U7) : State :=
  match s.bank[(channelAt s.ch k).program.toNat]? with
  | none => s
  | some p => noteOnProgram cfg s k key velocity p

/-! ### Note off, sustain -/

/-- The voices `MIX.NOTE_OFF` addresses (rule R275). -/
def Voice.sounds (v : Voice) (k : Nat) (key : U7) : Bool := v.active && (v.channel == k) && (v.key == key)

/-- `MIX.NOTE_OFF` on a valid channel (rule R275). -/
def noteOff (cfg : Config) (s : State) (k : Nat) (key : U7) : State :=
  { s with
    voices := s.voices.map (fun v => if v.sounds k key then v.noteOff cfg (channelAt s.ch k).sustain else v) }

/-- The voices whose deferred KeyOff fires when the pedal of channel `k` goes up (rule R279). -/
def Voice.pendingOn (v : Voice) (k : Nat) : Bool := v.active && (v.channel == k) && v.releasePending

/-- `SetSustain(channel, on)` (rule R279). -/
def setSustain (cfg : Config) (s : State) (k : Nat) (on : Bool) : State :=
  let s' := setChannel s k { channelAt s.ch k with sustain := on }
  if on then s'
  else { s' with voices := s.voices.map (fun v => if v.pendingOn k then v.fireRelease cfg else v) }

/-! ### Controllers, program, bend -/

/-- The channel fields `ResetControllers` restores (rule R280); `program`, `last_pitch` and `has_last` stay, `sustain`
is cleared by `SetSustain`. -/
def ChannelState.resetControllers (cfg : Config) (c : ChannelState) : ChannelState :=
  { c with
    volume := cfg.chDefault.volume
    expression := cfg.chDefault.expression
    pan := cfg.chDefault.pan
    reverb := cfg.chDefault.reverb
    modDepth := cfg.chDefault.modDepth
    vibRate := cfg.chDefault.vibRate
    portaOn := cfg.chDefault.portaOn
    portaTime := cfg.chDefault.portaTime
    lfoPhase := cfg.chDefault.lfoPhase
    bend := cfg.chDefault.bend }

/-- `ResetControllers(channel)` (rule R280). -/
def resetControllers (cfg : Config) (s : State) (k : Nat) : State :=
  setSustain cfg (setChannel s k (ChannelState.resetControllers cfg (channelAt s.ch k))) k false

/-- `MIX.CC` on a valid channel (rule R278). The OPEN vibrato-rate number comes after the fixed ones. -/
def controlChange (cfg : Config) (s : State) (k : Nat) (number value : U7) : State :=
  let c := channelAt s.ch k
  match number.toNat with
  | 7 => setChannel s k { c with volume := value }
  | 11 => setChannel s k { c with expression := value }
  | 10 => setChannel s k { c with pan := value }
  | 91 => setChannel s k { c with reverb := value }
  | 1 => setChannel s k { c with modDepth := value }
  | 5 => setChannel s k { c with portaTime := value }
  | 65 => setChannel s k { c with portaOn := switchOn value }
  | 64 => setSustain cfg s k (switchOn value)
  | 121 => resetControllers cfg s k
  | _ => if cfg.ccVibRate = some number then setChannel s k { c with vibRate := value } else s

/-- The pitch multiplier of a channel's current Program, 0 where the number is beyond the bank (rule R277). -/
def channelPitchMult (s : State) (k : Nat) : Flt :=
  match s.bank[(channelAt s.ch k).program.toNat]? with
  | none => .zero
  | some p => p.pitchMult

/-- The bend ratio (rule R277), with its guard. -/
def bendRatio (cfg : Config) (b : U7) (pm : Flt) : Flt :=
  let n := cfg.num
  let r := n.exp2 (n.div (n.mul (n.div (n.sub (u7ToF cfg b) (n.ofNat 64)) (n.ofNat 64)) pm) (n.ofNat 12))
  if n.isFinite r && Flt.zero.lt r then r else .one

/-! ### The operations -/

/-- `MIX.NOTE_ON` (rule R270). -/
def execMixNoteOn (channel : BitVec 8) (key velocity : U7) (s : State) : Outcome State Fault Refusal :=
  match channelOf Config.machine channel with
  | none => ignored s
  | some k => .next (noteOn Config.machine s k key velocity)

/-- `MIX.NOTE_OFF` (rule R275). -/
def execMixNoteOff (channel : BitVec 8) (key : U7) (s : State) : Outcome State Fault Refusal :=
  match channelOf Config.machine channel with
  | none => ignored s
  | some k => .next (noteOff Config.machine s k key)

/-- `MIX.PROGRAM` (rule R276): the number is stored even where the bank has no such Program. -/
def execMixProgram (channel : BitVec 8) (program : U7) (s : State) : Outcome State Fault Refusal :=
  match channelOf Config.machine channel with
  | none => ignored s
  | some k => .next (setChannel s k { channelAt s.ch k with program := program })

/-- `MIX.BEND` (rule R277). -/
def execMixBend (channel : BitVec 8) (bend : U7) (s : State) : Outcome State Fault Refusal :=
  match channelOf Config.machine channel with
  | none => ignored s
  | some k => .next (setChannel s k { channelAt s.ch k with bend := bendRatio Config.machine bend (channelPitchMult s k) })

/-- `MIX.CC` (rule R278). -/
def execMixCc (channel : BitVec 8) (number value : U7) (s : State) : Outcome State Fault Refusal :=
  match channelOf Config.machine channel with
  | none => ignored s
  | some k => .next (controlChange Config.machine s k number value)

end Sys2Proof.Machine
end

