-- ==== Sys2Proof/Machine/ReverbUnit.lean ====
section
/-! DEFINITION. The comb/all-pass reverb network: 42_reverb.md rules R200 to R210. -/

namespace Sys2Proof.Machine

open Host (Outcome)

/-- `BASE = samp(mBASE)` (rule R202). -/
def Reverb.base (cfg : Config) (rv : Reverb) : Nat := rv.offs cfg .mBASE

/-- `SPAN = END - BASE` with `END = P_RVB_MEM_SAMPLES` (rule R202); 0 where the base lies at or beyond the end. -/
def Reverb.span (cfg : Config) (rv : Reverb) : Nat := cfg.rvbMemSamples - rv.base cfg

/-- `addr(rel) = BASE + ((cursor - BASE + rel) mod SPAN)` (rule R202). -/
def Reverb.addr (cfg : Config) (rv : Reverb) (rel : Int) : Nat :=
  rv.base cfg + (((rv.cursor : Int) - rv.base cfg + rel) % (rv.span cfg : Int)).toNat

/-- `RvbRead(rel)` (rule R61). -/
def Reverb.read (cfg : Config) (rv : Reverb) (rel : Int) : Int := (Memory.read rv.mem (rv.addr cfg rel)).toInt

/-- `RvbWrite(rel, v)`: saturated to the 16-bit cell (rules R61 and R203). -/
def Reverb.write (cfg : Config) (rv : Reverb) (rel : Int) (v : Int) : Reverb :=
  { rv with mem := Memory.write rv.mem (rv.addr cfg rel) (toS16 v) }

/-- `Reflect(m, d, x)` (rule R205). -/
def Reverb.reflect (cfg : Config) (rv : Reverb) (m d : RvbReg) (x : Int) : Reverb :=
  let fb := rv.read cfg ((rv.offs cfg m : Int) - 1)
  let t := x + q15 (rv.read cfg (rv.offs cfg d)) (rv.gain .vWALL) - fb
  rv.write cfg (rv.offs cfg m) (fb + q15 t (rv.gain .vIIR))

/-- One comb tap: the cell at an offset register, times a gain register, rounded on its own (rule R206). -/
def Reverb.tap (cfg : Config) (rv : Reverb) (m g : RvbReg) : Int := q15 (rv.read cfg (rv.offs cfg m)) (rv.gain g)

/-- The saturated value `v` an all-pass stage writes and continues from (rule R207). -/
def allPassIn (x fb g : Int) : Int := sat16 (x - q15 fb g)

/-- The output of an all-pass stage (rule R207, conflict C2). -/
def allPassOut (cfg : Config) (v fb g : Int) : Int :=
  match cfg.rvbApfForm with
  | .schroeder => q15 v g + fb
  | .literal => v + q15 fb g

/-- `AllPass(x, m, d, g)` (rule R207): the reverb after the write, and the output. -/
def Reverb.allPass (cfg : Config) (rv : Reverb) (x : Int) (m d g : RvbReg) : Reverb × Int :=
  let fb := rv.read cfg ((rv.offs cfg m : Int) - (rv.offs cfg d : Int))
  let v := allPassIn x fb (rv.gain g)
  (rv.write cfg (rv.offs cfg m) v, allPassOut cfg v fb (rv.gain g))

/-- `AdvanceCursor()` (rule R209). -/
def Reverb.advance (cfg : Config) (rv : Reverb) : Reverb :=
  { rv with cursor := if cfg.rvbMemSamples ≤ rv.cursor + 1 then rv.base cfg else rv.cursor + 1 }

/-- Stages 1 and 2 of `RVB.STEP`: input gains and the four reflections, in order (rules R204 and R205). -/
def Reverb.reflections (cfg : Config) (rv : Reverb) (inL inR : S16) : Reverb :=
  let lin := q15 inL.toInt (rv.gain .vLIN)
  let rin := q15 inR.toInt (rv.gain .vRIN)
  let r1 := rv.reflect cfg .mLSAME .dLSAME lin
  let r2 := r1.reflect cfg .mRSAME .dRSAME rin
  let r3 := r2.reflect cfg .mLDIFF .dRDIFF lin
  r3.reflect cfg .mRDIFF .dLDIFF rin

/-- Stage 3, left channel (rules R204 and R206). -/
def Reverb.combL (cfg : Config) (rv : Reverb) : Int :=
  rv.tap cfg .mLCOMB1 .vCOMB1 + rv.tap cfg .mLCOMB2 .vCOMB2 + rv.tap cfg .mLCOMB3 .vCOMB3 + rv.tap cfg .mLCOMB4 .vCOMB4

/-- Stage 3, right channel (rules R204 and R206). -/
def Reverb.combR (cfg : Config) (rv : Reverb) : Int :=
  rv.tap cfg .mRCOMB1 .vCOMB1 + rv.tap cfg .mRCOMB2 .vCOMB2 + rv.tap cfg .mRCOMB3 .vCOMB3 + rv.tap cfg .mRCOMB4 .vCOMB4

/-- Stage 4: two cascaded all-pass stages per channel, in order (rules R204 and R207). -/
def Reverb.allPasses (cfg : Config) (rv : Reverb) (l r : Int) : Reverb × Int × Int :=
  let a := rv.allPass cfg l .mLAPF1 .dAPF1 .vAPF1
  let b := a.1.allPass cfg r .mRAPF1 .dAPF1 .vAPF1
  let c := b.1.allPass cfg a.2 .mLAPF2 .dAPF2 .vAPF2
  let d := c.1.allPass cfg b.2 .mRAPF2 .dAPF2 .vAPF2
  (d.1, c.2, d.2)

/-- `RVB.STEP(inL, inR)` (rule R204): the reverb after the step, and the two saturated outputs. -/
def Reverb.stepFrame (cfg : Config) (rv : Reverb) (inL inR : S16) : Reverb × S16 × S16 :=
  let r := rv.reflections cfg inL inR
  let p := r.allPasses cfg (r.combL cfg) (r.combR cfg)
  (p.1.advance cfg, toS16 (q15 p.2.1 (p.1.gain .vLOUT)), toS16 (q15 p.2.2 (p.1.gain .vROUT)))

/-- `RVB.STEPF(inL, inR)` (rule R210). -/
def Reverb.stepFrameF (cfg : Config) (rv : Reverb) (inL inR : Flt) : Reverb × Flt × Flt :=
  let r := rv.stepFrame cfg (cfg.num.toS16 inL) (cfg.num.toS16 inR)
  (r.1, cfg.num.ofS16 r.2.1, cfg.num.ofS16 r.2.2)

/-- `RVB.WRITE(i, v)` on the unit (rule R200): a write to `mBASE` moves the cursor to the new base. -/
def Reverb.writeReg (cfg : Config) (rv : Reverb) (i : Fin numRvbRegs) (v : U16) : Reverb :=
  let rv' := { rv with reg := rv.reg.set i v }
  if i = RvbReg.mBASE.index then { rv' with cursor := rv'.base cfg } else rv'

/-- `RVB.RESET` on the unit (rule R201). -/
def Reverb.clear (cfg : Config) (rv : Reverb) : Reverb := { rv with mem := [], cursor := rv.base cfg }

/-- `RVB.WRITE` (rule R200); an index above 34 is ignored (rule R352). -/
def execRvbWrite (index : BitVec 8) (value : U16) (s : State) : Outcome State Fault Refusal :=
  match rvbIndexOf index with
  | none => ignored s
  | some i => .next { s with rvb := s.rvb.writeReg Config.machine i value }

/-- `RVB.RESET` (rule R201). -/
def execRvbReset (s : State) : Outcome State Fault Refusal :=
  .next { s with rvb := s.rvb.clear Config.machine }

/-- `RVB.STEP` (rule R204); refused where the span is empty (rules R202 and R356). -/
def execRvbStep (s : State) : Outcome State Fault Refusal :=
  if s.rvb.span Config.machine = 0 then .refused .reverbSpanEmpty
  else
    let r := s.rvb.stepFrame Config.machine s.ports.inL s.ports.inR
    withResult { s with rvb := r.1 } (.frame r.2.1 r.2.2)

/-- `RVB.STEPF` (rule R210); refused where the span is empty (rules R202 and R356). -/
def execRvbStepf (s : State) : Outcome State Fault Refusal :=
  if s.rvb.span Config.machine = 0 then .refused .reverbSpanEmpty
  else
    let r := s.rvb.stepFrameF Config.machine s.ports.inFL s.ports.inFR
    withResult { s with rvb := r.1 } (.frameF r.2.1 r.2.2)

end Sys2Proof.Machine
end

