-- ==== Sys2Proof/Machine/Render.lean ====
section
/-! DEFINITION. Rendering and blending: 44_mixer.md rules R281, R288 to R291. -/

namespace Sys2Proof.Machine

open Host (Outcome)

/-! ### MIX.RENDER -/

/-- One output sample of every voice in order (rule R281): inactive voices are skipped. -/
def stepVoices (cfg : Config) (cache : SMap DecodedSample) (ch : List ChannelState) (lfo : Nat → Flt) :
    List Voice → Frame → List Voice × Frame
  | [], acc => ([], acc)
  | v :: vs, acc =>
    let r := if v.active then v.step cfg cache (channelAt ch v.channel) (lfo v.channel) acc else (v, acc)
    let rest := stepVoices cfg cache ch lfo vs r.2
    (r.1 :: rest.1, rest.2)

/-- The part of the state a render advances from sample to sample. -/
structure MixState where
  ch : List ChannelState
  voices : List Voice

/-- One sample index of `MIX.RENDER` (rules R281 and R291): the channels' modulation ratios are taken and their phases
advanced, then the voices are stepped. -/
def renderSample (cfg : Config) (cache : SMap DecodedSample) (m : MixState) : MixState × Frame :=
  let lfo := fun k => cfg.chanLfoRatio (channelAt m.ch k)
  let ch := m.ch.map (fun c => { c with lfoPhase := cfg.lfoAdvance c })
  let r := stepVoices cfg cache ch lfo m.voices Frame.silent
  ({ ch := ch, voices := r.1 }, r.2)

/-- `n` samples of `MIX.RENDER` (rule R281). -/
def renderSamples (cfg : Config) (cache : SMap DecodedSample) : Nat → MixState → MixState × List Frame
  | 0, m => (m, [])
  | n + 1, m =>
    let r := renderSample cfg cache m
    let rest := renderSamples cfg cache n r.1
    (rest.1, r.2 :: rest.2)

/-- The purge at the start of a render (rules R281 and R288). -/
def purge (vs : List Voice) : List Voice := vs.filter (fun v => v.active)

/-- `MIX.RENDER(n)` (rule R281): the four buffers are overwritten; the blend's outputs are not touched. -/
def render (cfg : Config) (n : Nat) (s : State) : State :=
  let r := renderSamples cfg s.cache n { ch := s.ch, voices := purge s.voices }
  { s with
    ch := r.1.ch
    voices := r.1.voices
    out := { s.out with
      dryL := r.2.map Frame.dryL
      dryR := r.2.map Frame.dryR
      wetL := r.2.map Frame.wetL
      wetR := r.2.map Frame.wetR } }

/-! ### MIX.BLEND -/

/-- Frame `i` of the buffers of the last render (rule R289). -/
def OutBuffers.frameAt (o : OutBuffers) (i : Nat) : Frame :=
  { dryL := tabAt o.dryL i, dryR := tabAt o.dryR i, wetL := tabAt o.wetL i, wetR := tabAt o.wetR i }

/-- The `n = len(dryL)` frames of the buffers (rule R289). -/
def OutBuffers.frames (o : OutBuffers) : List Frame := (List.range o.dryL.length).map o.frameAt

/-- The frames of a blend with the reverb on, one reverb step each, in order (rule R289). -/
def blendWet (cfg : Config) : List Frame → Reverb → Reverb × List (Flt × Flt)
  | [], rv => (rv, [])
  | f :: fs, rv =>
    let r := rv.stepFrameF cfg f.wetL f.wetR
    let rest := blendWet cfg fs r.1
    let mix := fun dry wet => cfg.num.add dry (cfg.num.mul cfg.reverbMix wet)
    (rest.1, (mix f.dryL r.2.1, mix f.dryR r.2.2) :: rest.2)

/-- The frames of a blend with the reverb bypassed (rule R289). -/
def blendDry (fs : List Frame) : List (Flt × Flt) := fs.map (fun f => (f.dryL, f.dryR))

/-- The outputs of a blend (rules R289 and R290): the floating-point pair, unclamped, and its saturated 16-bit form. -/
def OutBuffers.withBlend (cfg : Config) (o : OutBuffers) (fs : List (Flt × Flt)) : OutBuffers :=
  { o with
    outL := fs.map (fun f => f.1)
    outR := fs.map (fun f => f.2)
    pcmL := fs.map (fun f => cfg.num.toS16 f.1)
    pcmR := fs.map (fun f => cfg.num.toS16 f.2) }

/-- `MIX.BLEND(rev)` (rule R289). -/
def blend (cfg : Config) (rev : Bool) (s : State) : State :=
  if rev then
    let r := blendWet cfg s.out.frames s.rvb
    { s with rvb := r.1, out := s.out.withBlend cfg r.2 }
  else { s with out := s.out.withBlend cfg (blendDry s.out.frames) }

/-! ### The operations -/

/-- `MIX.RENDER` (rule R281). -/
def execMixRender (n : BitVec 24) (s : State) : Outcome State Fault Refusal :=
  withResult (render Config.machine n.toNat s) .rendered

/-- `MIX.BLEND` (rule R289); refused where it would step a reverb whose span is empty (rules R202 and R356). -/
def execMixBlend (rev : Bool) (s : State) : Outcome State Fault Refusal :=
  if rev && decide (s.rvb.span Config.machine = 0) && !s.out.dryL.isEmpty then .refused .reverbSpanEmpty
  else withResult (blend Config.machine rev s) .blended

end Sys2Proof.Machine
end

