-- ==== Sys2Proof/Machine/Dispatch.lean ====
section
/-! DEFINITION. One arm per constructor of `Instr`, each one direct call of its meaning. -/

namespace Sys2Proof.Machine

open Host (Outcome)

def exec (i : Instr) (s : State) : Host.Outcome State Fault Refusal :=
  match i with
  | .adpcmDecode => Sys2Proof.Machine.execAdpcmDecode s
  | .adpcmFetch => Sys2Proof.Machine.execAdpcmFetch s
  | .envLoad => Sys2Proof.Machine.execEnvLoad s
  | .envKeyon => Sys2Proof.Machine.execEnvKeyon s
  | .envKeyoff => Sys2Proof.Machine.execEnvKeyoff s
  | .envTick => Sys2Proof.Machine.execEnvTick s
  | .rvbWrite index value => Sys2Proof.Machine.execRvbWrite index value s
  | .rvbReset => Sys2Proof.Machine.execRvbReset s
  | .rvbStep => Sys2Proof.Machine.execRvbStep s
  | .rvbStepf => Sys2Proof.Machine.execRvbStepf s
  | .vibConfig hasShape hasDepth => Sys2Proof.Machine.execVibConfig hasShape hasDepth s
  | .vibTick => Sys2Proof.Machine.execVibTick s
  | .mixNoteOn channel key velocity => Sys2Proof.Machine.execMixNoteOn channel key velocity s
  | .mixNoteOff channel key => Sys2Proof.Machine.execMixNoteOff channel key s
  | .mixProgram channel program => Sys2Proof.Machine.execMixProgram channel program s
  | .mixBend channel bend => Sys2Proof.Machine.execMixBend channel bend s
  | .mixCc channel number value => Sys2Proof.Machine.execMixCc channel number value s
  | .mixRender n => Sys2Proof.Machine.execMixRender n s
  | .mixBlend rev => Sys2Proof.Machine.execMixBlend rev s
  | .fmtAdpcmHdr _ _ => Sys2Proof.Machine.execFmtAdpcmHdr s
  | .fmtAdpcmFlags _ _ _ => Sys2Proof.Machine.execFmtAdpcmFlags s
  | .fmtAdsr _ _ _ _ _ _ _ _ _ _ _ => Sys2Proof.Machine.execFmtAdsr s
  | .fmtRate _ _ => Sys2Proof.Machine.execFmtRate s

end Sys2Proof.Machine
end

