-- ==== Sys2Proof/Machine/Fetch.lean ====
section
/-! DEFINITION. How an operation reaches the block. There is no program counter and no fetch from memory (rule R36):
the host presents operations one at a time, in order (rules R20 and R73), each as a command word with its port operands
(rule R98). The model holds what has been presented and not yet executed in `State.queue`. -/

namespace Sys2Proof.Machine

/-- The state in which the operation `c` executes: `c` has left the queue (`rest` remains), its port operands are at the
ports, and the result ports hold no result yet. -/
def present (s : State) (c : Command) (rest : List Command) : State :=
  { s with queue := rest, ports := c.ports, result := .none }

/-- `c` presented as the next operation. -/
def presentNext (s : State) (c : Command) : State := { s with queue := c :: s.queue }

/-- The command whose word has the bits `w` below `nbits` and 0 above, with the port operands now at the ports. -/
def tableCommand (s : State) (nbits w : Nat) : Command :=
  { word := BitVec.ofNat 32 (w % 2 ^ nbits), ports := s.ports }

end Sys2Proof.Machine
end

