-- ==== Sys2Proof/Machine/Step.lean ====
section
/-! DEFINITION. One step: the next presented operation is executed to completion (rules R13 and R73). With none
presented nothing changes: "nothing changes unless the host issues an operation" (rule R20). A reserved opcode is
ignored: "no state change, no result" (rule R355). -/

namespace Sys2Proof.Machine

def step (s : State) : Host.Outcome State Fault Refusal :=
  match s.queue with
  | [] => .next s
  | c :: rest =>
    match decode c.word with
    | .ok i => exec i (present s c rest)
    | .error _ => ignored (present s c rest)

/-- `s` with the instruction `w` presented as the next operation, with the port operands now at the ports. -/
def State.withFetchWord (s : State) (nbits w : Nat) : State := presentNext s (tableCommand s nbits w)

end Sys2Proof.Machine
end

