-- ==== Sys2Proof/Machine/Sequencer.lean ====
section
/-! DEFINITION. The reference host, the sequencing driver: 45_sequencer_host.md rules R330 to R337 and the event record
of 30_encoding.md rule R103. It is no operation of the block and has no command word (rule R331): it turns an event
list into the operations it issues, and collects what the blends put out. The progress callback (rule R336) has no
effect and is left out, as that rule says. -/

namespace Sys2Proof.Machine

open Host (Outcome)

/-- Event payloads (rule R103); `invalid` is an event whose kind is none of the seven (rule R335). -/
inductive EventKind where
  | noteOn (key velocity : U7)
  | noteOff (key : U7)
  | controller (number value : U7)
  | program (number : U7)
  | pitchBend (value : U7)
  | tempo (bpm : Flt)
  | endOfTrack
  | invalid
deriving DecidableEq, Repr

/-- `SQEvent` (rule R103, with the channel of conflict C10). -/
structure SQEvent where
  delta : Nat
  channel : Nat
  kind : EventKind
deriving DecidableEq, Repr

/-- What the host does: render and blend a chunk of `n` samples, or issue one operation. -/
inductive SeqAction where
  | chunk (n : BitVec 24)
  | issue (i : Instr)
deriving DecidableEq, Repr

/-- The longest chunk, `2^24 - 1` samples (rules R100 and R331). -/
def maxChunk : Nat := 16777215

/-- `Chunk(n)` (rule R331): whole chunks, then the rest; nothing for 0 samples. -/
def chunkActions (n : Nat) : List SeqAction :=
  List.replicate (n / maxChunk) (.chunk (BitVec.ofNat 24 maxChunk)) ++
    (if n % maxChunk = 0 then [] else [.chunk (BitVec.ofNat 24 (n % maxChunk))])

/-- `samples_per_tick` (rule R332). -/
def samplesPerTick (cfg : Config) (bpm : Flt) (tpq : Nat) : Flt :=
  let n := cfg.num
  n.mul (n.div (n.div (n.ofNat 60) bpm) (n.ofNat tpq)) (n.ofNat cfg.sampleRate)

/-- `TicksToSamples(delta, bpm, tpq)` (rule R332): rounded down, 0 where the product is not finite or is negative. -/
def ticksToSamples (cfg : Config) (delta : Nat) (bpm : Flt) (tpq : Nat) : Nat :=
  let n := cfg.num
  let x := n.mul (n.ofNat delta) (samplesPerTick cfg bpm tpq)
  if !n.isFinite x || x.lt .zero then 0 else (n.floorInt x).toNat

/-- A tempo the driver can use (rule R335). -/
def validTempo (cfg : Config) (bpm : Flt) : Bool := cfg.num.isFinite bpm && Flt.zero.lt bpm

/-- `Valid(e)` (rule R335). -/
def SQEvent.valid (cfg : Config) (e : SQEvent) : Bool :=
  match e.kind with
  | .noteOn _ _ => true
  | .noteOff _ => true
  | .controller _ _ => true
  | .program _ => true
  | .pitchBend _ => true
  | .tempo bpm => validTempo cfg bpm
  | .endOfTrack => true
  | .invalid => false

/-- The channel byte of the command word. A channel above 15 is ignored by the block whatever its value, so one above
255 is presented as 255 (rules R100 and R333). -/
def SQEvent.channelByte (e : SQEvent) : BitVec 8 := BitVec.ofNat 8 (min e.channel 255)

/-- `Apply(e)` (rule R333): the operation an event issues, if any. -/
def SQEvent.apply (e : SQEvent) : List SeqAction :=
  match e.kind with
  | .noteOn key velocity => [.issue (.mixNoteOn e.channelByte key velocity)]
  | .noteOff key => [.issue (.mixNoteOff e.channelByte key)]
  | .controller number value => [.issue (.mixCc e.channelByte number value)]
  | .program number => [.issue (.mixProgram e.channelByte number)]
  | .pitchBend value => [.issue (.mixBend e.channelByte value)]
  | .tempo _ => []
  | .endOfTrack => []
  | .invalid => []

/-- The tempo after an event (rule R333). -/
def SQEvent.tempoAfter (e : SQEvent) (bpm : Flt) : Flt :=
  match e.kind with
  | .tempo b => b
  | .noteOn _ _ => bpm
  | .noteOff _ => bpm
  | .controller _ _ => bpm
  | .program _ => bpm
  | .pitchBend _ => bpm
  | .endOfTrack => bpm
  | .invalid => bpm

/-- The event loop of `SEQ.RUN` (rule R331): an invalid event stops the loop before its delta is rendered, an end of
track after it. -/
def seqEvents (cfg : Config) (tpq : Nat) : List SQEvent → Flt → List SeqAction
  | [], _ => []
  | e :: es, bpm =>
    if e.valid cfg then
      chunkActions (ticksToSamples cfg e.delta bpm tpq) ++
        (if e.kind = .endOfTrack then [] else e.apply ++ seqEvents cfg tpq es (e.tempoAfter bpm))
    else []

/-- The silent tail (rule R334). -/
def tailSamples (cfg : Config) : Nat := cfg.tailSeconds * cfg.sampleRate

/-- All that `SEQ.RUN(events, tpq, bpm0, rev)` does, in order (rules R331 and R335). -/
def seqActions (cfg : Config) (events : List SQEvent) (tpq : Nat) (bpm0 : Flt) : List SeqAction :=
  (if tpq = 0 ∨ ¬ validTempo cfg bpm0 then [] else seqEvents cfg tpq events bpm0) ++ chunkActions (tailSamples cfg)

/-- The finished buffers of the host (rules R330 and R331). -/
structure SeqBuffers where
  resL : List Flt
  resR : List Flt
  pcmL : List S16
  pcmR : List S16
deriving DecidableEq, Repr

/-- Nothing collected yet. -/
def SeqBuffers.empty : SeqBuffers := { resL := [], resR := [], pcmL := [], pcmR := [] }

/-- Append the outputs of a blend (rule R331). -/
def SeqBuffers.append (b : SeqBuffers) (o : OutBuffers) : SeqBuffers :=
  { resL := b.resL ++ o.outL, resR := b.resR ++ o.outR, pcmL := b.pcmL ++ o.pcmL, pcmR := b.pcmR ++ o.pcmR }

/-- One host action against the block (rule R331). -/
def runAction (rev : Bool) (s : State) (b : SeqBuffers) : SeqAction → Outcome (State × SeqBuffers) Fault Refusal
  | .issue i =>
    match exec i s with
    | .next t => .next (t, b)
    | .fault f => .fault f
    | .refused r => .refused r
  | .chunk n =>
    match exec (.mixRender n) s with
    | .fault f => .fault f
    | .refused r => .refused r
    | .next t =>
      match exec (.mixBlend rev) t with
      | .next u => .next (u, b.append u.out)
      | .fault f => .fault f
      | .refused r => .refused r

/-- Host actions in order. -/
def runActions (rev : Bool) : List SeqAction → State → SeqBuffers → Outcome (State × SeqBuffers) Fault Refusal
  | [], s, b => .next (s, b)
  | a :: as, s, b =>
    match runAction rev s b a with
    | .next (t, c) => runActions rev as t c
    | .fault f => .fault f
    | .refused r => .refused r

/-- `SEQ.RUN(events, tpq, bpm0, rev)` against a block in state `s` (rule R331). -/
def seqRun (events : List SQEvent) (tpq : Nat) (bpm0 : Flt) (rev : Bool) (s : State) :
    Outcome (State × SeqBuffers) Fault Refusal :=
  runActions rev (seqActions Config.machine events tpq bpm0) s .empty

/-- The command words `SEQ.RUN` issues, as a queue the block's `step` executes. -/
def SeqAction.commands (rev : Bool) : SeqAction → List Command
  | .issue i => [{ word := encode i, ports := .idle }]
  | .chunk n => [{ word := encode (.mixRender n), ports := .idle }, { word := encode (.mixBlend rev), ports := .idle }]

/-! The three sizes of the external exporter's container (rule R337). -/

/-- Header length of the container in bytes. -/
def containerHeader : Nat := 44
/-- `data_size = sample_count * 4`. -/
def containerDataSize (frames : Nat) : Nat := frames * 4
/-- `overall_size = data_size + 36`. -/
def containerOverallSize (frames : Nat) : Nat := containerDataSize frames + 36

end Sys2Proof.Machine
end

