-- ==== Sys2Proof/Safety.lean ====
section
/-! DEFINITION. What a well-formed state is (`State.Inv`, the invariants 10_state.md and the unit files state), and what
a safe run is: one that no step stops (rule R350: "Every operation ... is total: for every state and every operand value
it terminates and yields a well-formed state"). -/

namespace Sys2Proof.Machine

/-- Invariants of a decoded sample (rule R22). -/
abbrev DecodedSample.wf (d : DecodedSample) : Prop :=
  d.pcm.length % 28 = 0 ∧ d.loopEnd = d.pcm.length ∧ d.loopStart % 28 = 0 ∧ (0 < d.pcm.length → d.loopStart < d.loopEnd)

/-- The decode cache: at most one entry per offset, in canonical order, each a well-formed sample (rules R22, R23). -/
abbrev cacheWf (c : SMap DecodedSample) : Prop := SMap.wf c ∧ ∀ e ∈ c, e.2.wf

/-- An envelope unit: its rate parameters are those of its register and phase (rule R24), the level is in 0..32767
(rule R165), it is 0 in Off (rule R167), and the counter is below the threshold (rule R165). -/
abbrev Env.wf (e : Env) : Prop :=
  Env.setPhase Config.machine e e.phase = { e with counter := 0 } ∧ 0 ≤ e.level.toInt ∧
    (e.phase = .off → e.level = 0) ∧ e.counter.toNat < 0x8000

/-- The reverb unit: the delay memory is canonical and inside the address space, and `BASE <= cursor < END`
(rules R27 and R69). -/
abbrev Reverb.wf (rv : Reverb) : Prop :=
  Memory.wf rv.mem ∧ (∀ c ∈ rv.mem, c.1 < 262144) ∧ rv.base Config.machine ≤ rv.cursor ∧ rv.cursor < 262144

/-- A phase inside a table of `len` entries, `0 <= p < len` (rule R28). The upper bound is stated for the lengths that
`ofInt` represents exactly (rule R11); a longer table's last index may round to its length. -/
abbrev phaseWf (p : Flt) (len : Nat) : Prop :=
  Flt.zero.le p = true ∧ (len ≤ 2 ^ 53 → p.lt (Flt.ofNat len) = true)

/-- A vibrato unit: no table is empty, each phase lies inside its table, the depth is finite (rules R28 and R240). -/
abbrev Vib.wf (v : Vib) : Prop :=
  1 ≤ v.shape.length ∧ phaseWf v.phase v.shape.length ∧
    (v.hasDepth = true → 1 ≤ v.depthTab.length ∧ phaseWf v.depthPhase v.depthTab.length) ∧ v.depth.isFinite = true

/-- A voice: its own units are well-formed, its channel is one of the sixteen, and its handle, if any, is a key of the
cache (rule R32). -/
abbrev Voice.wf (cache : SMap DecodedSample) (v : Voice) : Prop :=
  v.env.wf ∧ v.vib.wf ∧ v.channel < 16 ∧ (∀ o, v.sample = some o → (SMap.find cache o).isSome = true)

/-- The output buffers: the mixer's four have one length, the blend's four have one length (rules R34 and R289). -/
abbrev OutBuffers.wf (o : OutBuffers) : Prop :=
  o.dryR.length = o.dryL.length ∧ o.wetL.length = o.dryL.length ∧ o.wetR.length = o.dryL.length ∧
    o.outR.length = o.outL.length ∧ o.pcmL.length = o.outL.length ∧ o.pcmR.length = o.outL.length

/-- A channel: the bend ratio is finite and positive (rules R31 and R277). -/
abbrev ChannelState.wf (c : ChannelState) : Prop := c.bend.isFinite = true ∧ Flt.zero.lt c.bend = true

/-- The invariant of the block: every unit is well-formed. -/
structure State.Inv (s : State) : Prop where
  cache : cacheWf s.cache
  envd : s.envd.wf
  rvb : s.rvb.wf
  vibd : s.vibd.wf
  slots : s.ch.length = 16
  ch : ∀ c ∈ s.ch, c.wf
  voices : ∀ v ∈ s.voices, v.wf s.cache
  out : s.out.wf

/-- A step goes on from `s`: it ends neither in a fault nor in a refusal. -/
def GoesOn (s : State) : Prop := ∃ t, step s = .next t

/-- A safe run: `n` steps from `s` all go on. -/
def RunsOn (n : Nat) (s : State) : Prop := ∃ t, Host.Core.run Sys2Proof.core n s = .next t

end Sys2Proof.Machine
end

