-- ==== Sys2Proof/Certificates/Slice0/Obligations.lean ====
section
/-! DEFINITION. The statements for the provers: definitions of `Prop`, and the few plain functions they are stated with
(namespace `Sys2Proof.Spec`), written from the spec's formulas and not from the model's. "D<n>" in a docstring is a
decision of 92_eei_decisions.md, which the spec marks as its own; a statement that rests on one is 'derived'. -/

open Sys2Proof Sys2Proof.Machine Host

namespace Sys2Proof.Spec

/-- Whole blocks a decode may read (rules R133 and R135). -/
def wholeBlocks (buf : List Byte) : Nat := min buf.length 1048576 / 16

/-- Flag byte of block `b` (rule R90). -/
def blockFlags (buf : List Byte) (b : Nat) : Byte := buf.getD (16 * b + 1) 0

/-- Header byte of block `b` (rule R90). -/
def blockHeader (buf : List Byte) (b : Nat) : Byte := buf.getD (16 * b) 0

/-- Value of nibble `j` of block `b`: the low nibble of its byte first, in two's complement (rules R62 and R93). -/
def nibble (buf : List Byte) (b j : Nat) : Int :=
  let raw := (buf.getD (16 * b + 2 + j / 2) 0).toNat / 16 ^ (j % 2) % 16
  if raw < 8 then raw else raw - 16

/-- The shifted nibble of rule R130 for a header's shift code. -/
def shifted (t : Int) (code : Nat) : Int := if code ≤ 12 then t * 2 ^ (12 - code) else t / 2 ^ (code - 12)

/-- The predictor of rule R131 for a header's filter code, with the table of rule R7. -/
def predicted (code : Nat) (h1 h2 : Int) : Int :=
  let f := if code ≤ 4 then code else 0
  (h1 * [0, 60, 115, 98, 122].getD f 0 + h2 * [0, 0, -52, -55, -60].getD f 0 + 32) / 64

/-- The rate of a phase, by the fields' bit positions (rules R94 and R96). -/
def rate (reg : Nat) : EnvPhase → Nat
  | .off => 0
  | .attack => reg / 2 ^ 10 % 32 * 4 + reg / 2 ^ 8 % 4
  | .decay => reg / 2 ^ 4 % 16 * 4
  | .sustain => reg / 2 ^ 24 % 32 * 4 + reg / 2 ^ 22 % 4
  | .release => reg / 2 ^ 16 % 32 * 4

/-- Whether a phase falls (rules R94 and R161). -/
def falls (reg : Nat) : EnvPhase → Bool
  | .off => false
  | .attack => false
  | .decay => true
  | .sustain => reg / 2 ^ 30 % 2 == 1
  | .release => true

/-- Whether a phase is exponential (rules R94 and R161). -/
def exponential (reg : Nat) : EnvPhase → Bool
  | .off => false
  | .attack => reg / 2 ^ 15 % 2 == 1
  | .decay => true
  | .sustain => reg / 2 ^ 31 % 2 == 1
  | .release => reg / 2 ^ 21 % 2 == 1

/-- The step of rule R162, with the default parameters. -/
def step (r : Nat) (falling : Bool) : Int :=
  let m : Int := if r < 44 then (7 - r % 4 : Int) * 2 ^ (11 - r / 4) else 7 - r % 4
  if falling then -m else m

/-- The increment of rule R162, with the default parameters; `never` is the rate with all mask bits set. -/
def inc (r never : Nat) : Nat :=
  if r < 48 then 32768 else if r = never then 0 else max 1 (32768 / 2 ^ (r / 4 - 11))

/-- The eight offset registers whose cells one reverb step writes, in order (rules R204, R205 and R207). -/
def written : List RvbReg := [.mLSAME, .mRSAME, .mLDIFF, .mRDIFF, .mLAPF1, .mRAPF1, .mLAPF2, .mRAPF2]

/-- The delay memory as an array of integers (rule R27). -/
abbrev Cells := Nat → Int

/-- What one reverb step reads besides the memory: gains and offsets in samples by register, and the address of an offset
(rules R97 and R202). -/
structure Taps where
  gain : RvbReg → Int
  offs : RvbReg → Int
  addr : Int → Nat

/-- `RvbWrite` on the array (rules R61 and R203). -/
def Taps.put (_x : Taps) (μ : Cells) (a : Nat) (v : Int) : Cells := fun b =>
  if b = a then max (-32768) (min 32767 v) else μ b

/-- `Reflect` on the array (rule R205). -/
def Taps.reflect (x : Taps) (m d : RvbReg) (input : Int) (μ : Cells) : Cells :=
  let fb := μ (x.addr (x.offs m - 1))
  let t := input + μ (x.addr (x.offs d)) * x.gain .vWALL / 32768 - fb
  x.put μ (x.addr (x.offs m)) (fb + t * x.gain .vIIR / 32768)

/-- A weighted comb tap on the array (rule R206). -/
def Taps.comb (x : Taps) (μ : Cells) (m g : RvbReg) : Int := μ (x.addr (x.offs m)) * x.gain g / 32768

/-- `AllPass` on the array, Schroeder form (rule R207). -/
def Taps.allPass (x : Taps) (input : Int) (m d g : RvbReg) (μ : Cells) : Cells × Int :=
  let fb := μ (x.addr (x.offs m - x.offs d))
  let v := max (-32768) (min 32767 (input - fb * x.gain g / 32768))
  (x.put μ (x.addr (x.offs m)) v, v * x.gain g / 32768 + fb)

/-- Stages 1 to 5 of `RVB.STEP` on the array: the cells after it and the two saturated outputs (rule R204). -/
def Taps.frame (x : Taps) (inL inR : Int) (μ : Cells) : Cells × Int × Int :=
  let lin := inL * x.gain .vLIN / 32768
  let rin := inR * x.gain .vRIN / 32768
  let μ4 := x.reflect .mRDIFF .dLDIFF rin (x.reflect .mLDIFF .dRDIFF lin
    (x.reflect .mRSAME .dRSAME rin (x.reflect .mLSAME .dLSAME lin μ)))
  let l := x.comb μ4 .mLCOMB1 .vCOMB1 + x.comb μ4 .mLCOMB2 .vCOMB2 + x.comb μ4 .mLCOMB3 .vCOMB3 + x.comb μ4 .mLCOMB4 .vCOMB4
  let r := x.comb μ4 .mRCOMB1 .vCOMB1 + x.comb μ4 .mRCOMB2 .vCOMB2 + x.comb μ4 .mRCOMB3 .vCOMB3 + x.comb μ4 .mRCOMB4 .vCOMB4
  let a := x.allPass l .mLAPF1 .dAPF1 .vAPF1 μ4
  let b := x.allPass r .mRAPF1 .dAPF1 .vAPF1 a.1
  let c := x.allPass a.2 .mLAPF2 .dAPF2 .vAPF2 b.1
  let d := x.allPass b.2 .mRAPF2 .dAPF2 .vAPF2 c.1
  (d.1, max (-32768) (min 32767 (c.2 * x.gain .vLOUT / 32768)), max (-32768) (min 32767 (d.2 * x.gain .vROUT / 32768)))

/-- The taps of a reverb unit in a given state, by the formulas of rules R97 and R202. -/
def taps (rv : Reverb) : Taps where
  gain r := (rv.reg[r.index]).toInt
  offs r := ((rv.reg[r.index]).toNat * 4 : Nat)
  addr rel :=
    let base : Int := ((rv.reg[34]).toNat * 4 : Nat)
    (base + (rv.cursor - base + rel) % (262144 - base)).toNat

/-- The delay memory of a reverb unit as an array. -/
def cells (rv : Reverb) : Cells := fun a => (Memory.read rv.mem a).toInt

/-- Distance of a table entry from the neutral value 127 (rule R243). -/
def dist (shape : List Byte) (i : Nat) : Nat := (((shape.getD i 0).toNat : Int) - 127).natAbs

/-- The pitch multiplier of a channel's current Program, 0 beyond the bank (rule R277). -/
def pitchMult (s : State) (k : Nat) : Flt :=
  ((s.bank[(channelAt s.ch k).program.toNat]?).map Program.pitchMult).getD .zero

/-- `exp2`: 1 at both zeros, free elsewhere (rule R11). -/
def exp2 (x : Flt) : Flt := if x.eq .zero = true then .one else Config.exp2Open x

/-- What a voice keeps for life: its channel and key, its sample handle, and what rules R389 and R272 latch at note-on
(Tone, Program, velocity, base ratio, resolved pitch multiplier, envelope register, portamento factor, vibrato tables,
depth and rates). -/
structure Identity where
  channel : Nat
  key : U7
  velocity : U7
  tone : Tone
  program : Program
  sample : Option Nat
  base : Flt
  pitchMult : Flt
  envReg : U32
  portaStep : Flt
  vibOn : Bool
  shape : List Byte
  hasDepth : Bool
  depthTab : List Flt
  depth : Flt
  vibRate : Flt
  vibDrate : Flt

/-- What a given voice keeps for life. -/
def identity (v : Voice) : Identity where
  channel := v.channel
  key := v.key
  velocity := v.velocity
  tone := v.tone
  program := v.program
  sample := v.sample
  base := v.base
  pitchMult := v.pitchMult
  envReg := v.env.reg
  portaStep := v.portaStep
  vibOn := v.vibOn
  shape := v.vib.shape
  hasDepth := v.vib.hasDepth
  depthTab := v.vib.depthTab
  depth := v.vib.depth
  vibRate := v.vibRate
  vibDrate := v.vibDrate

/-- Glide flag and portamento multiplier after one sample (rule R282, step 2). -/
def glideAfter (v : Voice) : Bool × Flt :=
  let p := v.porta.mul v.portaStep
  if v.glide = false then (false, v.porta)
  else if p.isFinite = false ∨ v.portaStep.eq .one = true ∨ (Flt.one.lt v.portaStep = true ∧ Flt.one.le p = true) ∨
      (v.portaStep.lt .one = true ∧ p.le .one = true) then (false, .one)
  else (true, p)

/-- Vibrato unit and ratio after one sample (rule R282, step 3). -/
def vibAfter (v : Voice) : Vib × Flt :=
  if v.vibOn = true then ((v.vib.tick Config.machine v.vibRate v.vibDrate).1,
    exp2 ((v.vib.tick Config.machine v.vibRate v.vibDrate).2.div (Flt.ofNat 12)))
  else (v.vib, .one)

/-- Playback increment of one sample (rule R282, step 4). -/
def increment (v : Voice) (c : ChannelState) : Flt :=
  let i := (((v.base.mul (glideAfter v).2).mul (vibAfter v).2).mul c.bend).mul (Config.chanLfoRatioOpen c)
  if i.isFinite = false ∨ i.lt .zero = true then .one else i

/-- The interpolated sample of a pitched voice (rule R283). -/
def interpolated (d : DecodedSample) (pos : Flt) : Flt :=
  let i := pos.floor.floorInt.toNat
  let j := if d.looping = true ∧ d.loopEnd ≤ i + 1 then d.loopStart else i + 1
  let a := Flt.ofInt (d.pcm.getD i 0).toInt
  let b := Flt.ofInt (d.pcm.getD j 0).toInt
  (a.add ((b.sub a).mul (pos.sub (Flt.ofNat i)))).div (Flt.ofNat 32768)

/-- The position behind the fetch (rule R283). -/
def positionAfter (d : DecodedSample) (p : Flt) : Flt :=
  let len := Flt.ofNat (d.loopEnd - d.loopStart)
  let x := p.sub (Flt.ofNat d.loopEnd)
  let q := (Flt.ofNat d.loopStart).add (x.sub (len.mul (x.div len).floor))
  if d.looping = true ∧ (Flt.ofNat d.loopEnd).le p = true then
    (if (Flt.ofNat d.loopStart).le q = true ∧ q.lt (Flt.ofNat d.loopEnd) = true then q else Flt.ofNat d.loopStart)
  else p

/-- A 7-bit value over 127 (rules R285 and R287). -/
def factor (x : U7) : Flt := (Flt.ofNat x.toNat).div (Flt.ofNat 127)

/-- One-sample buffers with a voice's sample `x` added: amplitude, pan and send of rules R285 to R287. -/
def plusVoice (b : OutBuffers) (v : Voice) (level : S16) (c : ChannelState) (x : Flt) : OutBuffers :=
  let amp := ((((((Flt.ofInt level.toInt).div (Flt.ofNat 32768)).mul (factor v.velocity)).mul (factor v.tone.volume)).mul
    (factor v.program.volume)).mul (factor c.volume)).mul (factor c.expression)
  let y := if (x.mul amp).isFinite = true then x.mul amp else .zero
  let t := (Flt.ofInt (max 0 (min 127 ((v.tone.pan.toNat : Int) + c.pan.toNat - 64)))).div (Flt.ofNat 127)
  let l := y.mul (Flt.one.sub t).sqrt
  let r := y.mul t.sqrt
  { b with
    dryL := b.dryL.map (fun z => z.add l)
    dryR := b.dryR.map (fun z => z.add r)
    wetL := if v.tone.reverb = true then b.wetL.map (fun z => z.add (l.mul (factor c.reverb))) else b.wetL
    wetR := if v.tone.reverb = true then b.wetR.map (fun z => z.add (r.mul (factor c.reverb))) else b.wetR }

/-- One sample's advance of a channel's modulation phase (rules R281 and R291). -/
def lfoStep (c : ChannelState) : ChannelState := { c with lfoPhase := Config.lfoAdvanceOpen c }

/-- `Wrap(p, L)` (rule R244). -/
def wrap (p : Flt) (len : Nat) : Flt :=
  let q := p.sub ((Flt.ofNat len).mul (p.div (Flt.ofNat len)).floor)
  if q.isFinite = false ∨ q.lt .zero = true ∨ (Flt.ofNat len).le q = true then .zero else q

/-- `Interp(t, p)` (rule R245): the two neighbours, the table circular. -/
def interpolate (t : List Flt) (p : Flt) : Flt :=
  let i := p.floor.floorInt.toNat
  let a := t.getD i .zero
  let b := t.getD ((i + 1) % t.length) .zero
  a.add ((b.sub a).mul (p.sub (Flt.ofNat i)))

/-- The lowest index among the entries nearest the neutral value (rule R243). -/
def IsNeutralIndex (shape : List Byte) (i : Nat) : Prop :=
  i < shape.length ∧ (∀ j, j < shape.length → dist shape i ≤ dist shape j) ∧ ∀ j, j < i → dist shape i < dist shape j

/-- The host's own `RVB.STEPF` on each frame of a list, in order: the state behind it and the outputs. -/
def stepfAll : List (Flt × Flt) → State → Option (State × List (Flt × Flt))
  | [], s => some (s, [])
  | f :: fs, s =>
    match exec .rvbStepf { s with ports := { s.ports with inFL := f.1, inFR := f.2 } } with
    | .next t =>
      match t.result, stepfAll fs t with
      | .frameF l r, some (u, os) => some (u, (l, r) :: os)
      | _, _ => none
    | .fault _ => none
    | .refused _ => none

/-- The adapter `f_to_s16` of the machine (rule R12). -/
abbrev toPcm (x : Flt) : S16 := Config.machine.num.toS16 x

/-- The adapter `s16_to_f` of the machine (rule R12). -/
abbrev ofPcm (v : S16) : Flt := Config.machine.num.ofS16 v

/-- The rational number a finite FLT stands for (rule R11). -/
def value (x : Flt) : ℚ :=
  match x with
  | .nan => 0
  | .inf _ => 0
  | .fin n e f =>
    (if n then -1 else 1) * (if e.val = 0 then (f.toNat : ℚ) else 2 ^ 52 + f.toNat) *
      (2 : ℚ) ^ ((max e.val 1 : ℕ) - 1075 : ℤ)

/-- Beyond this magnitude rounding to nearest gives an infinity: half a unit above the largest finite value. -/
def overflow : ℚ := 2 ^ 1024 - 2 ^ 970

/-- The last bit of the significand is 0. -/
def evenFraction : Flt → Prop
  | .nan => False
  | .inf _ => False
  | .fin _ _ f => f.toNat % 2 = 0

/-- `z` is `r` rounded to nearest, ties to even (rule R11, D2): finite and nearest where `r` is in range, with an even
significand where another value lies as near; an infinity of the right sign beyond. -/
def IsRounded (r : ℚ) (z : Flt) : Prop :=
  (|r| < overflow → z.isFinite = true ∧ ∀ w : Flt, w.isFinite = true →
    |value z - r| ≤ |value w - r| ∧ (value w ≠ value z → |value w - r| = |value z - r| → evenFraction z)) ∧
  (overflow ≤ r → z = .inf false) ∧ (r ≤ -overflow → z = .inf true)

/-- Samples of a delta (rule R332). -/
def samplesOf (delta : Nat) (bpm : Flt) (tpq : Nat) : Nat :=
  let x := (Flt.ofNat delta).mul ((((Flt.ofNat 60).div bpm).div (Flt.ofNat tpq)).mul (Flt.ofNat 44100))
  if x.isFinite = false ∨ x.lt .zero = true then 0 else x.floor.floorInt.toNat

/-- A tempo the host can use (rule R335). -/
def usable (bpm : Flt) : Bool := bpm.isFinite && Flt.zero.lt bpm

/-- Samples `SEQ.RUN` renders before the tail (rules R331, R332 and R335). -/
def eventSamples (tpq : Nat) : List SQEvent → Flt → Nat
  | [], _ => 0
  | e :: es, bpm =>
    match e.kind with
    | .invalid => 0
    | .endOfTrack => samplesOf e.delta bpm tpq
    | .tempo b => if usable b then samplesOf e.delta bpm tpq + eventSamples tpq es b else 0
    | .noteOn _ _ => samplesOf e.delta bpm tpq + eventSamples tpq es bpm
    | .noteOff _ => samplesOf e.delta bpm tpq + eventSamples tpq es bpm
    | .controller _ _ => samplesOf e.delta bpm tpq + eventSamples tpq es bpm
    | .program _ => samplesOf e.delta bpm tpq + eventSamples tpq es bpm
    | .pitchBend _ => samplesOf e.delta bpm tpq + eventSamples tpq es bpm

/-- The bits of a command word that an opcode's operation reads, opcode included (the operand column of rule R99, and
rule R100 for the low 7 bits of `b` and `c`). -/
def usedBits (op : Nat) : U32 :=
  match op with
  | 0x30 => 0xFFFFFFFF
  | 0x40 => 0xFF030000
  | 0x50 => 0xFFFF7F7F
  | 0x51 => 0xFFFF7F00
  | 0x52 => 0xFFFF7F00
  | 0x53 => 0xFFFF7F00
  | 0x54 => 0xFFFF7F7F
  | 0x55 => 0xFFFFFFFF
  | 0x56 => 0xFF010000
  | _ => 0xFF000000

/-- The unit an operation belongs to, by the high digit of its opcode (rule R99). -/
def unit (i : Instr) : Nat := (opOf (encode i)).toNat / 16

end Sys2Proof.Spec

open Sys2Proof.Spec

/-! ## Encoding -/

/-- Decode and encode agree on all 19 operations, every operand at every value (the command word is D1). -/
def Obligations.DecodeOfEncode : Prop := ∀ i : Instr, i.WellFormed → decode (encode i) = .ok i

/-- The four data formats: fields written out read back; bits 7:3 of the flag byte and bit 29 of the envelope register
are ignored (D7 places the unused bit at 29). -/
def Obligations.FormatFieldsReadBack : Prop :=
  (∀ f s, decodeAdpcmHdr ((encode (.fmtAdpcmHdr f s)).setWidth 8) = .fmtAdpcmHdr f s) ∧
  (∀ t l e, decodeAdpcmFlags ((encode (.fmtAdpcmFlags t l e)).setWidth 8) = .fmtAdpcmFlags t l e) ∧
  (∀ se sd ss st re rs ae as' at' ds sl, decodeAdsr (encode (.fmtAdsr se sd ss st re rs ae as' at' ds sl)) =
    .fmtAdsr se sd ss st re rs ae as' at' ds sl) ∧
  (∀ sh st, decodeRate ((encode (.fmtRate sh st)).setWidth 7) = .fmtRate sh st) ∧
  (∀ b : Byte, decodeAdpcmFlags b = decodeAdpcmFlags (b &&& 7)) ∧
  (∀ r : U32, decodeAdsr r = decodeAdsr (r &&& 0xDFFFFFFF))

/-- The decoder rejects exactly the words whose opcode the opcode map does not list; what it accepts is a well-formed
operation whose own word is the given one with the bits no operand uses at 0; those bits (unused operand bytes, bit 7 of
a 7-bit operand's byte, the bits of `a` beside a flag) do not change the decoding (D1). -/
def Obligations.ReservedOpcodesRejected : Prop :=
  ∀ w : U32,
    decode (w &&& usedBits (opOf w).toNat) = decode w ∧
    ((decode w = .error (.reservedOpcode (opOf w)) ∧
      (opOf w).toNat ∉ [0x10, 0x11, 0x20, 0x21, 0x22, 0x23, 0x30, 0x31, 0x32, 0x33, 0x40, 0x41, 0x50, 0x51, 0x52, 0x53,
        0x54, 0x55, 0x56]) ∨
    (∃ i, decode w = .ok i ∧ i.WellFormed ∧ opOf (encode i) = opOf w ∧ encode i = w &&& usedBits (opOf w).toNat ∧
      (opOf w).toNat ∈ [0x10, 0x11, 0x20, 0x21, 0x22, 0x23, 0x30, 0x31, 0x32, 0x33, 0x40, 0x41, 0x50, 0x51, 0x52, 0x53,
        0x54, 0x55, 0x56]))

/-- Words of 95_test_vectors.md decode to the operations they stand for. -/
def Obligations.SampleWordsDecode : Prop :=
  decode 0x10000000 = .ok .adpcmDecode ∧ decode 0x20000000 = .ok .envLoad ∧
  decode 0x3022FFF0 = .ok (.rvbWrite 34 0xFFF0) ∧ decode 0x40030000 = .ok (.vibConfig true true) ∧
  decode 0x50003C7F = .ok (.mixNoteOn 0 60 127) ∧ decode 0x5401407F = .ok (.mixCc 1 64 127) ∧
  decode 0x55015888 = .ok (.mixRender 88200) ∧ decode 0x56010000 = .ok (.mixBlend true)

/-- Rate bytes of the four phases (rule R96). -/
def Obligations.RateBytes : Prop :=
  ∀ r : U32,
    (phaseRate r .attack).toNat = (adsrAttShift r).toNat * 4 + (adsrAttStep r).toNat ∧
    (phaseRate r .sustain).toNat = (adsrSusShift r).toNat * 4 + (adsrSusStep r).toNat ∧
    (phaseRate r .decay).toNat = (adsrDecShift r).toNat * 4 ∧ (phaseRate r .decay).toNat ≤ 60 ∧
    (phaseRate r .release).toNat = (adsrRelShift r).toNat * 4 ∧ (phaseRate r .release).toNat ≤ 124

/-- The value of each of a block's 28 nibbles (rule R93). -/
def Obligations.NibbleValues : Prop :=
  ∀ (buf : List Byte) (b j : Nat), j < 28 → adpcmNibble (buf.drop (16 * b)) j = nibble buf b j

/-! ## The step -/

/-- A step runs the decoded operation, in the state where it has left the queue, its port operands are at the ports and
no result is there yet. -/
def Obligations.StepRunsDecodedOperation : Prop :=
  ∀ (s : State) (c : Command) (rest : List Command) (i : Instr),
    s.queue = c :: rest → decode c.word = .ok i →
      step s = exec i { s with queue := rest, ports := c.ports, result := .none }

/-- With nothing presented nothing changes (rule R20), and a reserved opcode changes only the interface: the model takes
rule R355's "ignored" and not the advice of rule R101 (log entry 2). -/
def Obligations.StepIdleOrIgnored : Prop :=
  (∀ s : State, s.queue = [] → step s = .next s) ∧
  (∀ (s : State) (c : Command) (rest : List Command) (e : DecodeError), s.queue = c :: rest → decode c.word = .error e →
    step s = .next { s with queue := rest, ports := c.ports, result := .none })

/-- Every operation completes in every state (rule R350), with the default parameters. -/
def Obligations.EveryOperationCompletes : Prop := ∀ (i : Instr) (s : State), i.WellFormed → ∃ t, exec i s = .next t

/-- A data format is no operation: executing one is refused, whatever its fields and the state (rules R98 and R99). -/
def Obligations.DataFormatsRefused : Prop :=
  ∀ (i : Instr) (s : State), ¬ i.WellFormed → exec i s = .refused .dataFormat

/-! ## Reset and the invariant -/

/-- Reset satisfies the invariant. -/
def Obligations.ResetSatisfiesInv : Prop := State.reset.Inv

/-- Every step keeps the invariant: canonical memories, a cursor inside the working region, well-formed samples,
envelopes, tables, handles and buffers (rules R22 to R28, R32, R34; several are D5, D9, D14, D19). -/
def Obligations.StepKeepsInv : Prop := ∀ s t : State, s.Inv → step s = .next t → t.Inv

/-- What reset leaves (the table of rule R39; every row but the reverb's zero state is D32 or D27, and the register
file is all 0 because the model is given no preset, log entry 7; the table behind an absent depth table is empty, log
entry 11). -/
def Obligations.ResetValues : Prop :=
  State.reset.cache = [] ∧ State.reset.voices = [] ∧
  State.reset.envd =
    { reg := 0, level := 0, target := 0, phase := .off, counter := 0, rate := 0, step := 0, inc := 0, decreasing := false
      exponential := false } ∧
  (∀ i : Fin numRvbRegs, State.reset.rvb.reg[i] = 0) ∧ (∀ a, Memory.read State.reset.rvb.mem a = 0) ∧
  State.reset.rvb.cursor = 0 ∧
  State.reset.vibd =
    { shape := vibDefaultTable, hasDepth := false, depthTab := [], phase := .zero, depthPhase := .zero, depth := .zero } ∧
  State.reset.out = { dryL := [], dryR := [], wetL := [], wetR := [], outL := [], outR := [], pcmL := [], pcmR := [] } ∧
  State.reset.ch = List.replicate 16
    { program := 0, volume := 127, expression := 127, pan := 64, reverb := 127, modDepth := 0, vibRate := 64
      sustain := false, portaOn := false, portaTime := 0, lfoPhase := .zero, bend := .one, lastPitch := .zero
      hasLast := false }

/-! ## ADPCM -/

/-- `ADPCM.DECODE` completes and puts out whole blocks up to the first end flag, with the loop data of rules R133 and
R134 (D5: the count is the one before the flagged block, 0 where no block carries the flag; D6: the cap). -/
def Obligations.AdpcmDecodeBlocks : Prop :=
  ∀ s : State, ∃ (d : DecodedSample) (m : Nat),
    exec .adpcmDecode s = .next { s with result := .decoded d } ∧
    m ≤ wholeBlocks s.ports.buf ∧
    (∀ b, b + 1 < m → (blockFlags s.ports.buf b).getLsbD 0 = false) ∧
    (m < wholeBlocks s.ports.buf → 0 < m ∧ (blockFlags s.ports.buf (m - 1)).getLsbD 0 = true) ∧
    d.pcm.length = 28 * m ∧ d.loopEnd = 28 * m ∧
    d.looping = (decide (0 < m) &&
      (blockFlags s.ports.buf (m - 1)).getLsbD 0 && (blockFlags s.ports.buf (m - 1)).getLsbD 1) ∧
    ((∀ b, b < m → (blockFlags s.ports.buf b).getLsbD 2 = false) → d.loopStart = 0) ∧
    (∀ b, b < m → (blockFlags s.ports.buf b).getLsbD 2 = true →
      (∀ c, b < c → c < m → (blockFlags s.ports.buf c).getLsbD 2 = false) → d.loopStart = 28 * b)

/-- Every decoded sample is the saturated sum of its shifted nibble and the prediction from the two outputs before it,
across block boundaries, zeros before the first (rules R130 to R132; D3, D4, D5). -/
def Obligations.AdpcmSampleRecurrence : Prop :=
  ∀ (s : State) (d : DecodedSample), exec .adpcmDecode s = .next { s with result := .decoded d } →
    ∀ i, i < d.pcm.length →
      (pcmAt d i).toInt = max (-32768) (min 32767
        (shifted (nibble s.ports.buf (i / 28) (i % 28)) ((blockHeader s.ports.buf (i / 28)).toNat % 16) +
         predicted ((blockHeader s.ports.buf (i / 28)).toNat / 16)
          (if 1 ≤ i then (pcmAt d (i - 1)).toInt else 0) (if 2 ≤ i then (pcmAt d (i - 2)).toInt else 0)))

/-- `ADPCM.FETCH` completes: a cached offset changes nothing, another is decoded once and bound; all other entries stay
(rule R137). -/
def Obligations.AdpcmFetchResult : Prop :=
  ∀ s : State, SMap.wf s.cache → ∃ c : SMap DecodedSample,
    exec .adpcmFetch s = .next { s with cache := c, result := .handle s.ports.offset } ∧ SMap.wf c ∧
    SMap.find c s.ports.offset =
      some ((SMap.find s.cache s.ports.offset).getD (adpcmDecode Config.machine (fetchSrc s.src s.ports.offset))) ∧
    (∀ o, o ≠ s.ports.offset → SMap.find c o = SMap.find s.cache o)

/-- An entry of the decode cache, once made, is never changed or removed by any operation (rule R23). -/
def Obligations.CacheEntriesPersist : Prop :=
  ∀ (i : Instr) (s t : State), SMap.wf s.cache → exec i s = .next t →
    SMap.wf t.cache ∧ ∀ o d, SMap.find s.cache o = some d → SMap.find t.cache o = some d

/-! ## Envelope -/

/-- `ENV.LOAD` completes: the register is the two halves, everything else is at rest (rule R160; D7, D32). -/
def Obligations.EnvLoadResult : Prop :=
  ∀ s : State, exec .envLoad s = .next { s with envd :=
    { reg := s.ports.hi16 ++ s.ports.lo16, level := 0, target := 0, phase := .off, counter := 0, rate := 0, step := 0,
      inc := 0, decreasing := false, exponential := false } }

/-- `ENV.KEYON`, command word 0x21000000, completes: level 0 and phase Attack, from every phase (rule R163). -/
def Obligations.EnvKeyonResult : Prop :=
  decode 0x21000000 = .ok .envKeyon ∧ ∀ s : State,
    exec .envKeyon s = .next { s with envd := Env.setPhase Config.machine { s.envd with level := 0 } .attack } ∧
    (Env.setPhase Config.machine { s.envd with level := 0 } .attack).level = 0 ∧
    (Env.setPhase Config.machine { s.envd with level := 0 } .attack).phase = .attack ∧
    (Env.setPhase Config.machine { s.envd with level := 0 } .attack).counter = 0

/-- `ENV.KEYOFF`, command word 0x22000000, completes: nothing in Off and Release, Release at the same level from every
other phase (rule R164). -/
def Obligations.EnvKeyoffResult : Prop :=
  decode 0x22000000 = .ok .envKeyoff ∧ ∀ s : State,
    ((s.envd.phase = .off ∨ s.envd.phase = .release) → exec .envKeyoff s = .next s) ∧
    ((s.envd.phase = .attack ∨ s.envd.phase = .decay ∨ s.envd.phase = .sustain) →
      exec .envKeyoff s = .next { s with envd := Env.setPhase Config.machine s.envd .release } ∧
      (Env.setPhase Config.machine s.envd .release).level = s.envd.level ∧
      (Env.setPhase Config.machine s.envd .release).phase = .release ∧
      (Env.setPhase Config.machine s.envd .release).counter = 0)

/-- What entering a phase writes: rate, direction, curve, target, step and increment by the formulas of rules R161 and
R162 with the default parameters (D7, D8, D9, D11, D12). -/
def Obligations.PhaseParameters : Prop :=
  ∀ (e : Env) (p : EnvPhase), p ≠ .off →
    let n := Env.setPhase Config.machine e p
    let r := rate e.reg.toNat p
    n.rate.toNat = r ∧ n.decreasing = falls e.reg.toNat p ∧ n.exponential = exponential e.reg.toNat p ∧
    n.step.toInt = Spec.step r (falls e.reg.toNat p) ∧
    n.inc.toNat = inc r (if p = .attack ∨ p = .sustain then 127 else 124) ∧
    (p = .attack → n.target.toInt = 32767) ∧
    (p = .decay → n.target.toInt = min ((e.reg.toNat % 16 + 1) * 2048) 32767) ∧
    (p = .sustain ∨ p = .release → n.target.toInt = 0) ∧
    n.reg = e.reg ∧ n.level = e.level ∧ n.phase = p ∧ n.counter = 0

/-- `ENV.TICK` completes: the held level in Off; else the counter, the step and the clamp of rule R165, then the phase
sequencing (D9, D10, D12; a level outside the 16 bits, which no run reaches, saturates: log entry 12). -/
def Obligations.EnvTickResult : Prop :=
  ∀ s : State,
    (s.envd.phase = .off → exec .envTick s = .next { s with result := .level s.envd.level .off }) ∧
    (s.envd.phase ≠ .off → ∃ e : Env,
      exec .envTick s = .next { s with
        envd := Env.advance Config.machine e
        result := .level (Env.advance Config.machine e).level (Env.advance Config.machine e).phase } ∧
      e = { s.envd with level := e.level, counter := e.counter } ∧
      (let slow := s.envd.exponential && !s.envd.decreasing && decide (24576 ≤ s.envd.level.toInt)
       let i := if slow && decide (44 ≤ s.envd.rate.toNat) then s.envd.inc.toNat / 2 else s.envd.inc.toNat
       let d : Int :=
         if s.envd.exponential && s.envd.decreasing then s.envd.step.toInt * s.envd.level.toInt / 32768
         else if slow && decide (s.envd.rate.toNat < 44) then s.envd.step.toInt / 2 else s.envd.step.toInt
       (s.envd.counter.toNat + i < 32768 → e.counter.toNat = s.envd.counter.toNat + i ∧ e.level = s.envd.level) ∧
       (32768 ≤ s.envd.counter.toNat + i → e.counter = 0 ∧
         e.level.toInt = min 32767 (if s.envd.decreasing then max (s.envd.level.toInt + d) 0
           else max (s.envd.level.toInt + d) (-32768)))))

/-- The phase sequence: Attack, Decay, Sustain (held), Release, Off, one transition at most, when the level reaches the
target in the phase's direction; it is made on every tick, with or without a step, and keeps the level (rule R166). -/
def Obligations.EnvPhaseSequence : Prop :=
  ∀ e : Env,
    let reached := if e.decreasing then decide (e.level.toInt ≤ e.target.toInt) else decide (e.target.toInt ≤ e.level.toInt)
    (e.phase = .sustain ∨ e.phase = .off → Env.advance Config.machine e = e) ∧
    (reached = false → Env.advance Config.machine e = e) ∧
    (reached = true → e.phase = .attack → Env.advance Config.machine e = Env.setPhase Config.machine e .decay) ∧
    (reached = true → e.phase = .decay → Env.advance Config.machine e = Env.setPhase Config.machine e .sustain) ∧
    (reached = true → e.phase = .release → Env.advance Config.machine e = Env.setPhase Config.machine e .off) ∧
    (Env.advance Config.machine e).level = e.level ∧
    (e.phase ≠ .off → Env.tick Config.machine e = Env.advance Config.machine (Env.applyStep Config.machine e))

/-- In Attack the level never falls, in Release it never rises, and it stays in 0..32767 in every phase (rule R169; D9,
D12). -/
def Obligations.EnvLevelMonotone : Prop :=
  ∀ e : Env, e.wf →
    (e.phase = .attack → e.level.toInt ≤ (Env.tick Config.machine e).level.toInt) ∧
    (e.phase = .release → (Env.tick Config.machine e).level.toInt ≤ e.level.toInt) ∧
    0 ≤ (Env.tick Config.machine e).level.toInt ∧ (Env.tick Config.machine e).level.toInt ≤ 32767

/-- A Release whose increment is not 0 reaches Off at level 0 within 2^30 ticks (rules R165 and R169; D9, D11). -/
def Obligations.ReleaseReachesOff : Prop :=
  ∀ e : Env, e.wf → e.phase = .release → e.inc ≠ 0 →
    ∃ n, n ≤ 2 ^ 30 ∧ ((Env.tick Config.machine)^[n] e).phase = .off ∧ ((Env.tick Config.machine)^[n] e).level = 0

/-! ## Reverb -/

/-- `RVB.WRITE` completes: one register is written, a write to `mBASE` moves the cursor to the new base, the memory
stays; an index above 34 does nothing (rule R200; D15, D19, D31). -/
def Obligations.RvbWriteResult : Prop :=
  ∀ (index : BitVec 8) (value : U16) (s : State),
    (34 < index.toNat → exec (.rvbWrite index value) s = .next s) ∧
    (∀ h : index.toNat < numRvbRegs, exec (.rvbWrite index value) s = .next { s with rvb :=
      { reg := s.rvb.reg.set index.toNat value h
        mem := s.rvb.mem
        cursor := if index.toNat = 34 then value.toNat * 4 else s.rvb.cursor } })

/-- `RVB.RESET` completes: every cell reads 0, the cursor is at the base, the registers stay (rule R201; D19). -/
def Obligations.RvbResetResult : Prop :=
  ∀ s : State, ∃ rv : Reverb, exec .rvbReset s = .next { s with rvb := rv } ∧ (∀ a, Memory.read rv.mem a = 0) ∧
    Memory.wf rv.mem ∧ rv.cursor = (s.rvb.reg[34]).toNat * 4 ∧ rv.reg = s.rvb.reg

/-- `RVB.STEP` completes, and changes only the cursor, by rule R209, and the cells at the eight destination addresses,
computed from the registers and the cursor before the step (rules R202 and R204; D14, D15, D16). -/
def Obligations.RvbStepFrame : Prop :=
  ∀ s : State, Memory.wf s.rvb.mem → ∃ (rv : Reverb) (l r : S16),
    exec .rvbStep s = .next { s with rvb := rv, result := .frame l r } ∧ rv.reg = s.rvb.reg ∧ Memory.wf rv.mem ∧
    rv.cursor = (if 262144 ≤ s.rvb.cursor + 1 then (s.rvb.reg[34]).toNat * 4 else s.rvb.cursor + 1) ∧
    (∀ a, a ∉ written.map (fun m => (taps s.rvb).addr ((taps s.rvb).offs m)) →
      Memory.read rv.mem a = Memory.read s.rvb.mem a)

/-- `RVB.STEP` on the sparse memory refines the array formulas of rules R204 to R208: same cells after it, same outputs
(D15, D16, D17, D18). -/
def Obligations.RvbStepRefinesArray : Prop :=
  ∀ (s : State), Memory.wf s.rvb.mem → ∃ (rv : Reverb) (l r : S16),
    exec .rvbStep s = .next { s with rvb := rv, result := .frame l r } ∧
    (∀ a, cells rv a = ((taps s.rvb).frame s.ports.inL.toInt s.ports.inR.toInt (cells s.rvb)).1 a) ∧
    l.toInt = ((taps s.rvb).frame s.ports.inL.toInt s.ports.inR.toInt (cells s.rvb)).2.1 ∧
    r.toInt = ((taps s.rvb).frame s.ports.inL.toInt s.ports.inR.toInt (cells s.rvb)).2.2

/-- `RVB.STEPF` completes: it is `RVB.STEP` between the two adapters of rule R12 (rule R210; D18). -/
def Obligations.RvbStepfIsAdaptedStep : Prop :=
  ∀ s : State, ∃ (rv : Reverb) (l r : S16),
    exec .rvbStep { s with ports := { s.ports with inL := toPcm s.ports.inFL, inR := toPcm s.ports.inFR } } =
      .next { s with
        ports := { s.ports with inL := toPcm s.ports.inFL, inR := toPcm s.ports.inFR }
        rvb := rv
        result := .frame l r } ∧
    exec .rvbStepf s = .next { s with rvb := rv, result := .frameF (ofPcm l) (ofPcm r) }

/-- After as many steps as the working region has cells the cursor is back where it was, whatever the inputs
(rule R209; D14). -/
def Obligations.ReverbCursorReturns : Prop :=
  ∀ (rv : Reverb) (ins : List (S16 × S16)), rv.base Config.machine ≤ rv.cursor → rv.cursor < 262144 →
    ins.length = 262144 - rv.base Config.machine →
      (ins.foldl (fun r x => (r.stepFrame Config.machine x.1 x.2).1) rv).cursor = rv.cursor

/-! ## Vibrato -/

/-- `VIB.CONFIG` completes: the tables supplied or the default one, the initial phase at the lowest of the entries
nearest 127 (rules R240, R241 and R243; D21, D22). Without a depth table the former one stays behind `hasDepth = false`,
which the spec leaves open (log entry 11). -/
def Obligations.VibConfigResult : Prop :=
  ∀ (hasShape hasDepth : Bool) (s : State),
    let sh := if hasShape ∧ s.ports.shape ≠ [] then s.ports.shape else vibDefaultTable
    let dep := hasDepth && !s.ports.depthRaw.isEmpty
    ∃ i, exec (.vibConfig hasShape hasDepth) s = .next { s with vibd :=
        { shape := sh
          hasDepth := dep
          depthTab := if dep then smooth Config.machine s.ports.depthRaw else s.vibd.depthTab
          phase := Flt.ofNat i
          depthPhase := .zero
          depth := if s.ports.depth.isFinite then s.ports.depth else .zero } } ∧
      IsNeutralIndex sh i

/-- The depth table has the raw table's length, its last entry equals its first, and every other entry is the circular
3-tap mean of the raw bytes (rule R242; D23). -/
def Obligations.DepthTableSmoothed : Prop :=
  ∀ raw : List Byte, raw ≠ [] →
    (smooth Config.machine raw).length = raw.length ∧
    tabAt (smooth Config.machine raw) (raw.length - 1) = tabAt (smooth Config.machine raw) 0 ∧
    (∀ i, i = 0 ∨ i + 1 < raw.length → tabAt (smooth Config.machine raw) i =
      (((Flt.ofNat (raw.getD ((i + raw.length - 1) % raw.length) 0).toNat).add (Flt.ofNat (raw.getD i 0).toNat)).add
        (Flt.ofNat (raw.getD ((i + 1) % raw.length) 0).toNat)).div (Flt.ofNat 3))

/-- `VIB.TICK` completes: each phase is `Wrap` of its sum with its rate, then the output is taken at the new phases; a
phase stays inside its table whatever the rate, a NaN or infinite one included (rules R244 to R246; D21). -/
def Obligations.VibTickResult : Prop :=
  ∀ s : State,
    let p := wrap (s.vibd.phase.add s.ports.rate) s.vibd.shape.length
    let q := if s.vibd.hasDepth then wrap (s.vibd.depthPhase.add s.ports.drate) s.vibd.depthTab.length
      else s.vibd.depthPhase
    exec .vibTick s = .next { s with
      vibd := { s.vibd with phase := p, depthPhase := q }
      result := .semis ((((((interpolate (s.vibd.shape.map (fun b => Flt.ofNat b.toNat)) p).div (Flt.ofNat 255)).sub
        Flt.half).mul (Flt.ofNat 2)).mul s.vibd.depth).mul
          (if s.vibd.hasDepth then (interpolate s.vibd.depthTab q).div (Flt.ofNat 255) else Flt.one)) } ∧
    (1 ≤ s.vibd.shape.length → Flt.zero.le p = true ∧ p.lt (Flt.ofNat s.vibd.shape.length) = true) ∧
    (s.vibd.hasDepth = true → 1 ≤ s.vibd.depthTab.length →
      Flt.zero.le q = true ∧ q.lt (Flt.ofNat s.vibd.depthTab.length) = true) ∧
    ((s.vibd.phase.add s.ports.rate).isFinite = false → p = .zero)

/-- The interpolation of a table of bytes (rules R245 and R247): exactly the entry at a whole phase; between entries the
straight line to the next one, the first following the last, and near the end of the table no jump to its first entry,
both within the rounding of binary64 (D2). -/
def Obligations.InterpAtEntry : Prop :=
  ∀ t : List Byte,
    let at' := fun p : Flt => interp Config.machine (t.map (byteToF Config.machine)) p
    let entry := fun i : Nat => ((t.getD i 0).toNat : ℚ)
    (∀ i, i < t.length → i < 2 ^ 53 → at' (Flt.ofNat i) = Flt.ofNat (t.getD i 0).toNat) ∧
    (∀ (p : Flt) (i : Nat), p.isFinite = true → i < t.length → i < 2 ^ 53 → (i : ℚ) ≤ value p → value p < i + 1 →
      |value (at' p) - (entry i + (entry ((i + 1) % t.length) - entry i) * (value p - i))| ≤ 1 / 2 ^ 40) ∧
    (∀ p : Flt, p.isFinite = true → 1 ≤ t.length → t.length ≤ 2 ^ 53 → (t.length : ℚ) - 1 ≤ value p → value p < t.length →
      |value (at' p) - entry 0| ≤ 255 * (t.length - value p) + 1 / 2 ^ 40)

/-! ## Mixer events -/

/-- A channel operand above 15 makes the five channel operations do nothing (rule R352; D31). -/
def Obligations.InvalidChannelIgnored : Prop :=
  ∀ (a : BitVec 8) (x y : U7) (s : State), 15 < a.toNat →
    exec (.mixNoteOn a x y) s = .next s ∧ exec (.mixNoteOff a x) s = .next s ∧ exec (.mixProgram a x) s = .next s ∧
    exec (.mixBend a x) s = .next s ∧ exec (.mixCc a x y) s = .next s

/-- A note-on does nothing where the program number is beyond the bank, the Program is an SFX one, or no Tone's key range
contains the key (rules R270 and R271). -/
def Obligations.NoteOnSilentCases : Prop :=
  ∀ (a : BitVec 8) (k : Nat) (key velocity : U7) (s : State), a.toNat = k → k < 16 →
    (s.bank.length ≤ (channelAt s.ch k).program.toNat ∨
      (∃ p, s.bank[(channelAt s.ch k).program.toNat]? = some p ∧
        (p.mode = .sfx ∨ ∀ t ∈ p.tones, key.toNat < t.keyMin.toNat ∨ t.keyMax.toNat < key.toNat))) →
    exec (.mixNoteOn a key velocity) s = .next s

/-- Which Tones a note-on matches: key ranges are inclusive; a split Program gives the first, a layered one all, in list
order (rule R271; D24). -/
def Obligations.MatchedTones : Prop :=
  ∀ (p : Program) (key : U7),
    let hit := fun t : Tone => decide (t.keyMin.toNat ≤ key.toNat ∧ key.toNat ≤ t.keyMax.toNat)
    (p.mode = .split → matchTones p key = (p.tones.find? hit).toList) ∧
    (p.mode = .layered → matchTones p key = p.tones.filter hit) ∧
    (p.mode = .sfx → matchTones p key = [])

/-- `MIX.NOTE_ON` completes where a Tone matches: one new voice per matched Tone at the end of the list, every matched
pitched Tone's sample in the cache (decoded only if it was not), the old entries kept and no other one made, and the
channel's last pitch set (rules R270 and R272; D24). -/
def Obligations.NoteOnBuildsVoices : Prop :=
  ∀ (a : BitVec 8) (k : Nat) (key velocity : U7) (s : State) (p : Program), a.toNat = k → k < 16 →
    SMap.wf s.cache → s.bank[(channelAt s.ch k).program.toNat]? = some p → matchTones p key ≠ [] →
    ∃ c : SMap DecodedSample,
      exec (.mixNoteOn a key velocity) s = .next { s with
        cache := c
        voices := s.voices ++ (matchTones p key).map (newVoice Config.machine s.breath k (channelAt s.ch k) key velocity p)
        ch := s.ch.set k { channelAt s.ch k with lastPitch := Flt.ofNat key.toNat, hasLast := true } } ∧
      (∀ o d, SMap.find s.cache o = some d → SMap.find c o = some d) ∧
      (∀ o, (∀ t ∈ matchTones p key, t.noise = false → t.sampleOffset ≠ o) → SMap.find c o = SMap.find s.cache o) ∧
      (∀ t ∈ matchTones p key, t.noise = false → SMap.find c t.sampleOffset =
        some ((SMap.find s.cache t.sampleOffset).getD (adpcmDecode Config.machine (fetchSrc s.src t.sampleOffset))))

/-- How a voice starts: keyed on from its Tone's register pair, at position 0 and the base ratio of rule R272, with a
handle unless it is a noise voice; a glide from the last pitch exactly where the channel has portamento and a prior note
at another key (and the OPEN duration is at least one sample); vibrato exactly where the Tone uses modulation, with the
tables of the breath index its flag selects, and depth and rates from the (OPEN) maps of the channel's controllers
(rules R272 to R274; D24, D25, D26; where there is no depth table the field behind it is empty, log entry 11). -/
def Obligations.NewVoiceInitialState : Prop :=
  ∀ (b : SMap BreathTable) (k : Nat) (c : ChannelState) (key velocity : U7) (p : Program) (t : Tone),
    let v := newVoice Config.machine b k c key velocity p t
    let d := (c.lastPitch.sub (Flt.ofNat key.toNat)).div (Flt.ofNat 12)
    let glides := c.portaOn = true ∧ c.hasLast = true ∧ c.lastPitch.eq (Flt.ofNat key.toNat) = false ∧
      1 ≤ Config.portaSamplesOpen c.portaTime
    v.env.reg = t.adsrHi ++ t.adsrLo ∧ v.env.level = 0 ∧ v.env.phase = .attack ∧ v.env.counter = 0 ∧ v.env.wf ∧
    v.channel = k ∧ v.key = key ∧ v.velocity = velocity ∧ v.tone = t ∧ v.program = p ∧
    v.sample = (if t.noise then none else some t.sampleOffset) ∧ v.pos = .zero ∧ v.active = true ∧
    v.releasePending = false ∧ v.noiseAcc = .zero ∧ v.noiseSample = 0 ∧
    v.pitchMult = (if t.useProgramPitch then p.pitchMult else t.pitchMult) ∧
    v.base = Spec.exp2 (((Flt.ofNat key.toNat).sub ((Flt.ofNat t.root.toNat).sub ((Flt.ofInt t.fine).div
      (Flt.ofNat 20)))).div (Flt.ofNat 12)) ∧
    v.glide = decide glides ∧ v.porta = (if glides then Spec.exp2 d else .one) ∧
    v.portaStep = (if glides then Spec.exp2 ((Flt.zero.sub d).div (Flt.ofNat (Config.portaSamplesOpen c.portaTime)))
      else .one) ∧
    v.noiseState = Config.noiseInitOpen ∧
    (t.useModulation = false → v.vibOn = false ∧ v.vibRate = .zero ∧ v.vibDrate = .zero ∧
      v.vib =
        { shape := vibDefaultTable, hasDepth := false, depthTab := [], phase := .zero, depthPhase := .zero
          depth := .zero }) ∧
    (t.useModulation = true →
      let tables := (SMap.find b (if t.useProgramBreath then p.defaultBreath else t.breath)).getD
        { shape := [], depthRaw := none }
      let shape := if tables.shape ≠ [] then tables.shape else vibDefaultTable
      let raw := tables.depthRaw.getD []
      let depth := Config.vibDepthSemisOpen c.modDepth
      let hz := Config.vibRateHzOpen c.vibRate
      v.vibOn = true ∧ v.vib.wf ∧
      (∃ i, IsNeutralIndex shape i ∧ v.vib =
        { shape := shape
          hasDepth := decide (raw ≠ [])
          depthTab := if raw ≠ [] then smooth Config.machine raw else []
          phase := Flt.ofNat i
          depthPhase := .zero
          depth := if depth.isFinite then depth else .zero }) ∧
      v.vibRate = ((Flt.ofNat shape.length).mul hz).div (Flt.ofNat 44100) ∧
      v.vibDrate = (if raw ≠ [] then ((Flt.ofNat raw.length).mul hz).div (Flt.ofNat 44100) else .zero)) ∧
    (key = t.root → t.fine = 0 → v.base = .one)

/-- `MIX.NOTE_OFF`, command word `0x51000000 | a<<16 | b<<8`, completes: every active voice of the channel and key is
keyed off, or marked where the pedal is down; every other voice stays (rule R275). -/
def Obligations.NoteOffResult : Prop :=
  ∀ (a : BitVec 8) (key : U7) (s : State),
    decode (0x51000000 ||| (a.setWidth 32 <<< 16) ||| (key.setWidth 32 <<< 8)) = .ok (.mixNoteOff a key) ∧
    (15 < a.toNat → exec (.mixNoteOff a key) s = .next s) ∧
    (∀ k : Nat, a.toNat = k → k < 16 → exec (.mixNoteOff a key) s = .next { s with
      voices := s.voices.map (fun v =>
        if v.active = true ∧ v.channel = k ∧ v.key = key then
          (if (channelAt s.ch k).sustain then { v with releasePending := true }
           else { v with env := Env.keyOff Config.machine v.env })
        else v) })

/-- `MIX.PROGRAM` completes: the number is stored whatever the bank holds; nothing else changes (rule R276; D27). -/
def Obligations.ProgramResult : Prop :=
  ∀ (a : BitVec 8) (k : Nat) (p : U7) (s : State), a.toNat = k → k < 16 →
    exec (.mixProgram a p) s = .next { s with ch := s.ch.set k { channelAt s.ch k with program := p } }

/-- `MIX.BEND` completes with the ratio of rule R277, which is finite and positive, 1 at the centre and where the program
number is beyond the bank; nothing else changes (rules R277, R352 and R354; D26, D31). -/
def Obligations.BendResult : Prop :=
  ∀ (a : BitVec 8) (k : Nat) (b : U7) (s : State), a.toNat = k → k < 16 → ∃ r : Flt,
    exec (.mixBend a b) s = .next { s with ch := s.ch.set k { channelAt s.ch k with bend := r } } ∧
    (let e := Spec.exp2 (((((Flt.ofNat b.toNat).sub (Flt.ofNat 64)).div (Flt.ofNat 64)).mul (pitchMult s k)).div
       (Flt.ofNat 12))
     r = if e.isFinite = true ∧ Flt.zero.lt e = true then e else .one) ∧
    r.isFinite = true ∧ Flt.zero.lt r = true ∧
    (b = 64 → (pitchMult s k).isFinite = true → r = .one) ∧
    (s.bank.length ≤ (channelAt s.ch k).program.toNat → r = .one)

/-- `MIX.CC` completes: the controllers that set one field, the switch of portamento from 64, and the numbers the block
does not know (rule R278; D27, D31). -/
def Obligations.ControllerWrites : Prop :=
  ∀ (a : BitVec 8) (k : Nat) (v : U7) (s : State), a.toNat = k → k < 16 →
    exec (.mixCc a 7 v) s = .next { s with ch := s.ch.set k { channelAt s.ch k with volume := v } } ∧
    exec (.mixCc a 11 v) s = .next { s with ch := s.ch.set k { channelAt s.ch k with expression := v } } ∧
    exec (.mixCc a 10 v) s = .next { s with ch := s.ch.set k { channelAt s.ch k with pan := v } } ∧
    exec (.mixCc a 91 v) s = .next { s with ch := s.ch.set k { channelAt s.ch k with reverb := v } } ∧
    exec (.mixCc a 1 v) s = .next { s with ch := s.ch.set k { channelAt s.ch k with modDepth := v } } ∧
    exec (.mixCc a 5 v) s = .next { s with ch := s.ch.set k { channelAt s.ch k with portaTime := v } } ∧
    exec (.mixCc a 65 v) s = .next { s with ch := s.ch.set k { channelAt s.ch k with portaOn := decide (64 ≤ v.toNat) } } ∧
    (∀ n : U7, n.toNat ∉ [1, 5, 7, 10, 11, 64, 65, 91, 121] →
      exec (.mixCc a n v) s = .next (if Config.ccVibRateOpen = some n then
        { s with ch := s.ch.set k { channelAt s.ch k with vibRate := v } } else s))

/-- The sustain pedal: pressing it changes no voice, releasing it fires the deferred KeyOffs of the channel's active
voices (rule R279; the threshold 64 is D27). -/
def Obligations.SustainPedal : Prop :=
  ∀ (a : BitVec 8) (k : Nat) (v : U7) (s : State), a.toNat = k → k < 16 →
    (64 ≤ v.toNat → exec (.mixCc a 64 v) s = .next { s with ch := s.ch.set k { channelAt s.ch k with sustain := true } }) ∧
    (v.toNat < 64 → exec (.mixCc a 64 v) s = .next { s with
      ch := s.ch.set k { channelAt s.ch k with sustain := false }
      voices := s.voices.map (fun x =>
        if x.active = true ∧ x.channel = k ∧ x.releasePending = true then
          { x with releasePending := false, env := Env.keyOff Config.machine x.env }
        else x) })

/-- Controller 121 restores the controllers, the bend and the modulation phase, releases the pedal, and keeps program
and last pitch (rule R280; D27). -/
def Obligations.ControllerReset : Prop :=
  ∀ (a : BitVec 8) (k : Nat) (v : U7) (s : State), a.toNat = k → k < 16 →
    exec (.mixCc a 121 v) s = .next { s with
      ch := s.ch.set k
        { program := (channelAt s.ch k).program, volume := 127, expression := 127, pan := 64, reverb := 127, modDepth := 0
          vibRate := 64, sustain := false, portaOn := false, portaTime := 0, lfoPhase := .zero, bend := .one
          lastPitch := (channelAt s.ch k).lastPitch, hasLast := (channelAt s.ch k).hasLast }
      voices := s.voices.map (fun x =>
        if x.active = true ∧ x.channel = k ∧ x.releasePending = true then
          { x with releasePending := false, env := Env.keyOff Config.machine x.env }
        else x) }

/-! ## Render and blend -/

/-- `MIX.RENDER` completes: four buffers of length `n`, the retired voices purged and the others kept in order with what
they keep for life, of each channel only the modulation phase, advanced `n` times by the (OPEN) `lfo_advance`; the
blend's outputs and all else stay (rules R281, R288, R291 and R389; D28; log entry 16). -/
def Obligations.RenderResult : Prop :=
  ∀ (n : BitVec 24) (s : State), ∃ (vs : List Voice) (dl dr wl wr : List Flt),
    exec (.mixRender n) s = .next { s with
      ch := s.ch.map (lfoStep^[n.toNat])
      voices := vs
      out := { s.out with dryL := dl, dryR := dr, wetL := wl, wetR := wr }
      result := .rendered } ∧
    dl.length = n.toNat ∧ dr.length = n.toNat ∧ wl.length = n.toNat ∧ wr.length = n.toNat ∧
    vs.map identity = (s.voices.filter (fun v => v.active)).map identity ∧
    (n = 0 → vs = s.voices.filter (fun v => v.active))

/-- Rendering `m` and then `n` samples gives the same samples, channels and active voices as rendering `m + n`
(rule R281, and L3 of rule R338; D28). -/
def Obligations.RenderSplits : Prop :=
  ∀ (m n : BitVec 24) (s t u w : State), m.toNat + n.toNat < 2 ^ 24 →
    exec (.mixRender m) s = .next t → exec (.mixRender n) t = .next u → exec (.mixRender (m + n)) s = .next w →
    w.out.dryL = t.out.dryL ++ u.out.dryL ∧ w.out.dryR = t.out.dryR ++ u.out.dryR ∧
    w.out.wetL = t.out.wetL ++ u.out.wetL ∧ w.out.wetR = t.out.wetR ++ u.out.wetR ∧
    w.ch = u.ch ∧ w.voices.filter (fun v => v.active) = u.voices.filter (fun v => v.active)

/-- One sample of a pitched voice, the last in the list: the buffers are those of a render without it plus its
interpolated sample, scaled, panned and sent; its envelope, glide, vibrato and position advance (rules R282, R283 and
R285 to R287; D28). -/
def Obligations.PitchedVoiceSample : Prop :=
  ∀ (s : State) (vs : List Voice) (v : Voice) (o : Nat) (d : DecodedSample),
    s.voices = vs ++ [v] → v.active = true → v.sample = some o → SMap.find s.cache o = some d →
    (Env.tick Config.machine v.env).phase ≠ .off → d.pcm ≠ [] →
    (d.looping = true ∨ v.pos.floor.floorInt < d.pcm.length) →
    ∃ t u : State, exec (.mixRender 1) s = .next t ∧ exec (.mixRender 1) { s with voices := vs } = .next u ∧
      t.out = plusVoice u.out v (Env.tick Config.machine v.env).level (channelAt s.ch v.channel) (interpolated d v.pos) ∧
      t.voices = u.voices ++ [{ v with
        env := Env.tick Config.machine v.env
        glide := (glideAfter v).1
        porta := (glideAfter v).2
        vib := (vibAfter v).1
        pos := positionAfter d (v.pos.add (increment v (channelAt s.ch v.channel))) }]

/-- One sample of a noise voice, the last in the list: it emits on every sample, a new value of the (OPEN) generator where
the accumulator reaches 1 and the held one otherwise (rules R282 and R284 to R287; D28). -/
def Obligations.NoiseVoiceSample : Prop :=
  ∀ (s : State) (vs : List Voice) (v : Voice), s.voices = vs ++ [v] → v.active = true → v.sample = none →
    (Env.tick Config.machine v.env).phase ≠ .off →
    let acc := v.noiseAcc.add (increment v (channelAt s.ch v.channel))
    let fresh := Flt.one.le acc
    let smp := if fresh = true then (Config.noiseNextOpen v.noiseState).1 else v.noiseSample
    ∃ t u : State, exec (.mixRender 1) s = .next t ∧ exec (.mixRender 1) { s with voices := vs } = .next u ∧
      t.out = plusVoice u.out v (Env.tick Config.machine v.env).level (channelAt s.ch v.channel)
        ((Flt.ofInt smp.toInt).div (Flt.ofNat 32768)) ∧
      t.voices = u.voices ++ [{ v with
        env := Env.tick Config.machine v.env
        glide := (glideAfter v).1
        porta := (glideAfter v).2
        vib := (vibAfter v).1
        noiseAcc := if fresh = true then acc.sub acc.floor else acc
        noiseSample := smp
        noiseState := if fresh = true then (Config.noiseNextOpen v.noiseState).2 else v.noiseState }]

/-- A voice whose envelope reaches Off on a sample, or whose sample is empty or overrun, adds nothing to that sample and
is retired, wherever it stands in the list: the buffers and all other voices are those of a render without it (rules
R282, R283 and R288; D28). -/
def Obligations.RetiredVoiceAddsNothing : Prop :=
  ∀ (s : State) (pre : List Voice) (v : Voice) (rest : List Voice), s.voices = pre ++ v :: rest → v.active = true →
    ((Env.tick Config.machine v.env).phase = .off ∨
      ∃ o d, v.sample = some o ∧ SMap.find s.cache o = some d ∧
        (d.pcm = [] ∨ (d.looping = false ∧ (d.pcm.length : Int) ≤ v.pos.floor.floorInt))) →
    ∃ (t u : State) (vs ws : List Voice) (w : Voice), exec (.mixRender 1) s = .next t ∧
      exec (.mixRender 1) { s with voices := pre ++ rest } = .next u ∧ t.out = u.out ∧
      u.voices = vs ++ ws ∧ t.voices = vs ++ w :: ws ∧ vs.length = (pre.filter (fun x => x.active)).length ∧
      w.active = false ∧ identity w = identity v ∧ w.env = Env.tick Config.machine v.env

/-- With no active voice a render gives zeros and changes only the channels' modulation phases, by the (OPEN)
`lfo_advance` of rule R291 (rules R281 and R366; D28). -/
def Obligations.IdleRenderIsSilent : Prop :=
  ∀ (n : BitVec 24) (s : State), (∀ v ∈ s.voices, v.active = false) →
    exec (.mixRender n) s = .next { s with
      ch := s.ch.map (lfoStep^[n.toNat])
      voices := []
      out := { s.out with
        dryL := List.replicate n.toNat .zero
        dryR := List.replicate n.toNat .zero
        wetL := List.replicate n.toNat .zero
        wetR := List.replicate n.toNat .zero }
      result := .rendered }

/-- `MIX.BLEND` with the reverb bypassed completes: the dry buffers unclamped, and saturated to 16 bits; the reverb is
not stepped (rules R289 and R290; D29). -/
def Obligations.BlendBypassResult : Prop :=
  ∀ s : State, s.out.wf → exec (.mixBlend false) s = .next { s with
    out := { s.out with
      outL := s.out.dryL
      outR := s.out.dryR
      pcmL := s.out.dryL.map toPcm
      pcmR := s.out.dryR.map toPcm }
    result := .blended }

/-- `MIX.BLEND` with the reverb on completes: it is one `RVB.STEPF` per frame of the wet buffers, in order, its outputs
times the (OPEN) mix fraction added to the dry buffers, and saturated to 16 bits; dry and wet buffers stay (rules R289
and R290; D29; a sum that overflows is the IEEE infinity, log entry 18). -/
def Obligations.BlendWetIsStepfPerFrame : Prop :=
  ∀ s : State, s.out.wf → ∃ (u : State) (os : List (Flt × Flt)) (ol or' : List Flt),
    stepfAll (s.out.wetL.zip s.out.wetR) s = some (u, os) ∧ os.length = s.out.dryL.length ∧
    ol = List.zipWith (fun d o => d.add (Config.reverbMixOpen.mul o.1)) s.out.dryL os ∧
    or' = List.zipWith (fun d o => d.add (Config.reverbMixOpen.mul o.2)) s.out.dryR os ∧
    exec (.mixBlend true) s = .next { s with
      rvb := u.rvb
      out := { s.out with outL := ol, outR := or', pcmL := ol.map toPcm, pcmR := or'.map toPcm }
      result := .blended }

/-- The saturating adapter: monotone on finite values, at the rails from ±1.0, 0 below one unit, 0 on NaN and the
infinities (rule R290; D18, D29). -/
def Obligations.AdapterSaturates : Prop :=
  (∀ x y : Flt, x.isFinite = true → y.isFinite = true → x.le y = true → (toPcm x).toInt ≤ (toPcm y).toInt) ∧
  (∀ x : Flt, x.isFinite = true → Flt.one.le x = true → (toPcm x).toInt = 32767) ∧
  (∀ x : Flt, x.isFinite = true → x.le Flt.one.negate = true → (toPcm x).toInt = -32768) ∧
  (∀ x : Flt, x.isFinite = true → -1 < value x * 32768 → value x * 32768 < 1 → toPcm x = 0) ∧
  (∀ x : Flt, x.isFinite = false → toPcm x = 0)

/-- A 16-bit sample survives the way to FLT and back (rule R12; D18). -/
def Obligations.SampleSurvivesAdapters : Prop :=
  ∀ v : S16, toPcm (ofPcm v) = v ∧ value (ofPcm v) = (v.toInt : ℚ) / 32768

/-! ## Numerics -/

/-- Sum and product are the correctly rounded IEEE operations (rule R11; D2): nearest with ties to even, finite wherever
the exact result is in range and an infinity beyond, with the sign of a zero sum and of every product as IEEE 754 has it
(an infinite product by its sign alone). -/
def Obligations.SumAndProductAreNearest : Prop :=
  ∀ x y : Flt, x.isFinite = true → y.isFinite = true →
    IsRounded (value x + value y) (x.add y) ∧ IsRounded (value x * value y) (x.mul y) ∧
    (value x + value y = 0 → x.add y = .fin (x.neg && y.neg) 0 0) ∧ (x.mul y).neg = (x.neg ^^ y.neg)

/-! ## The whole block -/

/-- The units share no state: an operation changes only its own unit's, the mixer never touches the direct units, only a
fetch or a note-on touches the cache, and only `MIX.BLEND` of the mixer the reverb (rules R35 and R345). -/
def Obligations.UnitsAreIsolated : Prop :=
  ∀ (i : Instr) (s t : State), i.WellFormed → exec i s = .next t →
    (Spec.unit i ≠ 2 → t.envd = s.envd) ∧ (Spec.unit i ≠ 4 → t.vibd = s.vibd) ∧
    (Spec.unit i ≠ 3 → i ≠ .mixBlend true → t.rvb = s.rvb) ∧
    (Spec.unit i ≠ 5 → t.voices = s.voices ∧ t.ch = s.ch ∧ t.out = s.out) ∧
    (i ≠ .adpcmFetch → (∀ a k v, i ≠ .mixNoteOn a k v) → t.cache = s.cache)

/-- No operation changes what the host owns: the bank, the compressed buffers, the breath tables, the port operands and
the operations still to come (rules R33, R60 and R75). -/
def Obligations.HostInputsAreConstant : Prop :=
  ∀ (i : Instr) (s t : State), exec i s = .next t →
    t.bank = s.bank ∧ t.src = s.src ∧ t.breath = s.breath ∧ t.ports = s.ports ∧ t.queue = s.queue

/-- The reference host's result has as many frames as the consumed deltas have samples, plus the 2-second tail, in every
state of the block and for every event list (rules R331, R332, R334 and R335; D30, and D20 for the rate). -/
def Obligations.SequenceFrameCount : Prop :=
  ∀ (events : List SQEvent) (tpq : Nat) (bpm : Flt) (rev : Bool) (s : State), ∃ (t : State) (b : SeqBuffers),
    seqRun events tpq bpm rev s = .next (t, b) ∧
    b.resL.length = (if tpq = 0 ∨ usable bpm = false then 0 else eventSamples tpq events bpm) + 88200 ∧
    b.resR.length = b.resL.length ∧ b.pcmL.length = b.resL.length ∧ b.pcmR.length = b.resL.length
end

