-- ==== Sys2Proof/Laws/Arith.lean ====
section
/-! SUPPORT. The integer primitives: what a clamp, a saturation and a stored sample can be. -/

namespace Sys2Proof

theorem clamp_bounds (v lo hi : Int) (h : lo ≤ hi) : lo ≤ clamp v lo hi ∧ clamp v lo hi ≤ hi := by
  unfold clamp; omega

theorem clamp_of_mem (v lo hi : Int) (h1 : lo ≤ v) (h2 : v ≤ hi) : clamp v lo hi = v := by
  unfold clamp; omega

theorem sat16_bounds (v : Int) : -32768 ≤ sat16 v ∧ sat16 v ≤ 32767 := clamp_bounds v _ _ (by decide)

theorem sat16_of_mem (v : Int) (h1 : -32768 ≤ v) (h2 : v ≤ 32767) : sat16 v = v := clamp_of_mem v _ _ h1 h2

theorem toInt_bounds (x : S16) : -32768 ≤ x.toInt ∧ x.toInt ≤ 32767 := by
  have h := BitVec.isLt x
  rw [BitVec.toInt_eq_toNat_cond]
  split <;> constructor <;> omega

/-- A stored sample reads back as the saturated integer. -/
@[simp] theorem toS16_toInt (v : Int) : (toS16 v).toInt = sat16 v := by
  have h := sat16_bounds v
  rw [toS16, BitVec.toInt_ofInt, Int.bmod_def]
  split <;> omega

/-- Storing what a sample reads as gives the sample. -/
@[simp] theorem toS16_of_toInt (x : S16) : toS16 x.toInt = x := by
  have h := toInt_bounds x
  rw [toS16, sat16_of_mem _ h.1 h.2, BitVec.ofInt_toInt]

theorem sat16_mono (a b : Int) (h : a ≤ b) : sat16 a ≤ sat16 b := by
  unfold sat16 clamp; omega

/-- An arithmetic right shift of a negative number stays negative. -/
theorem asr_neg (v : Int) (k : Nat) (h : v < 0) : asr v k < 0 :=
  Int.ediv_neg_of_neg_of_pos h (by positivity)

theorem asr_nonneg (v : Int) (k : Nat) (h : 0 ≤ v) : 0 ≤ asr v k :=
  Int.ediv_nonneg h (by positivity)

@[simp] theorem q15_zero_gain (a : Int) : q15 a 0 = 0 := by simp [q15, asr]

@[simp] theorem q15_zero_sample (g : Int) : q15 0 g = 0 := by simp [q15, asr]

/-- An offset register stays below the delay memory's size with the default unit of 8 bytes (rule R202). -/
theorem samp_default_lt (r : U16) : samp 8 r < 262144 := by
  have := BitVec.isLt r
  unfold samp; omega

end Sys2Proof
end

