-- ==== Sys2Proof/Laws/Config.lean ====
section
/-! SUPPORT. The machine's parameters as simp lemmas, one per field of the configuration record, so that no proof
unfolds the record. -/

namespace Sys2Proof

@[simp] theorem machine_sampleRate : Config.machine.sampleRate = 44100 := rfl
@[simp] theorem machine_adpcmBlockBytes : Config.machine.adpcmBlockBytes = 16 := rfl
@[simp] theorem machine_adpcmBlockSamples : Config.machine.adpcmBlockSamples = 28 := rfl
@[simp] theorem machine_adpcmMaxInput : Config.machine.adpcmMaxInput = 1048576 := rfl
@[simp] theorem machine_adpcmK0 : Config.machine.adpcmK0 = #v[0, 60, 115, 98, 122] := rfl
@[simp] theorem machine_adpcmK1 : Config.machine.adpcmK1 = #v[0, 0, -52, -55, -60] := rfl
@[simp] theorem machine_adpcmPredRound : Config.machine.adpcmPredRound = 32 := rfl
@[simp] theorem machine_adpcmPredShift : Config.machine.adpcmPredShift = 6 := rfl
@[simp] theorem machine_adpcmLoopLastWins : Config.machine.adpcmLoopLastWins = true := rfl
@[simp] theorem machine_adpcmNegShiftRight : Config.machine.adpcmNegShiftRight = true := rfl
@[simp] theorem machine_envIncBase : Config.machine.envIncBase = 32768 := rfl
@[simp] theorem machine_envCtrThreshold : Config.machine.envCtrThreshold = 32768 := rfl
@[simp] theorem machine_envExpThreshold : Config.machine.envExpThreshold = 24576 := rfl
@[simp] theorem machine_envSlowShift : Config.machine.envSlowShift = 1 := rfl
@[simp] theorem machine_envBand : Config.machine.envBand = 44 := rfl
@[simp] theorem machine_envStepNeg : Config.machine.envStepNeg = .negate := rfl
@[simp] theorem machine_envMaskAS : Config.machine.envMaskAS = 127 := rfl
@[simp] theorem machine_envMaskDR : Config.machine.envMaskDR = 124 := rfl
@[simp] theorem machine_envDecayExp : Config.machine.envDecayExp = true := rfl
@[simp] theorem machine_envPhaseInvert : Config.machine.envPhaseInvert = false := rfl
@[simp] theorem machine_envNorm : Config.machine.envNorm = 32768 := rfl
@[simp] theorem machine_rvbMemSamples : Config.machine.rvbMemSamples = 262144 := rfl
@[simp] theorem machine_rvbAddrScale : Config.machine.rvbAddrScale = 8 := rfl
@[simp] theorem machine_rvbApfForm : Config.machine.rvbApfForm = .schroeder := rfl
@[simp] theorem machine_rvbPreset : Config.machine.rvbPreset = none := rfl
@[simp] theorem machine_reverbMix : Config.machine.reverbMix = Config.reverbMixOpen := rfl
@[simp] theorem machine_vibNeutral : Config.machine.vibNeutral = 127 := rfl
@[simp] theorem machine_vibDefaultShape : Config.machine.vibDefaultShape = vibDefaultTable := rfl
@[simp] theorem machine_tailSeconds : Config.machine.tailSeconds = 2 := rfl
@[simp] theorem machine_ccVibRate : Config.machine.ccVibRate = Config.ccVibRateOpen := rfl
@[simp] theorem machine_chDefault : Config.machine.chDefault = chDefaults := rfl
@[simp] theorem machine_numChannels : Config.machine.numChannels = 16 := rfl
@[simp] theorem machine_num : Config.machine.num = Numerics.machine := rfl
@[simp] theorem numerics_add : Numerics.machine.add = Flt.add := rfl
@[simp] theorem numerics_sub : Numerics.machine.sub = Flt.sub := rfl
@[simp] theorem numerics_mul : Numerics.machine.mul = Flt.mul := rfl
@[simp] theorem numerics_div : Numerics.machine.div = Flt.div := rfl
@[simp] theorem numerics_sqrt : Numerics.machine.sqrt = Flt.sqrt := rfl
@[simp] theorem numerics_floor : Numerics.machine.floor = Flt.floor := rfl
@[simp] theorem numerics_ofInt : Numerics.machine.ofInt = Flt.ofInt := rfl
@[simp] theorem numerics_isFinite : Numerics.machine.isFinite = Flt.isFinite := rfl
@[simp] theorem numerics_exp2 : Numerics.machine.exp2 = exp2Machine := rfl
@[simp] theorem numerics_sin : Numerics.machine.sin = Config.sinOpen := rfl
@[simp] theorem numerics_ofNat (k : Nat) : Numerics.machine.ofNat k = Flt.ofNat k := rfl
@[simp] theorem numerics_floorInt (x : Flt) : Numerics.machine.floorInt x = x.floor.floorInt := rfl
theorem numerics_ofS16 (v : S16) : Numerics.machine.ofS16 v = (Flt.ofInt v.toInt).div (Flt.ofNat 32768) := by
  simp only [Numerics.ofS16, numerics_div, numerics_ofInt, numerics_ofNat]
@[simp] theorem machine_chanLfoRatio : Config.machine.chanLfoRatio = Config.chanLfoRatioOpen := rfl
@[simp] theorem machine_lfoAdvance : Config.machine.lfoAdvance = Config.lfoAdvanceOpen := rfl
@[simp] theorem machine_portaSamples : Config.machine.portaSamples = Config.portaSamplesOpen := rfl
@[simp] theorem machine_vibDepthSemis : Config.machine.vibDepthSemis = Config.vibDepthSemisOpen := rfl
@[simp] theorem machine_vibRateHz : Config.machine.vibRateHz = Config.vibRateHzOpen := rfl
@[simp] theorem machine_noiseNext : Config.machine.noiseNext = Config.noiseNextOpen := rfl
@[simp] theorem machine_noiseInit : Config.machine.noiseInit = Config.noiseInitOpen := rfl

/-- The adapter is 0 by its guard on a value that is not finite (rule R12). -/
theorem numerics_toS16_of_not_finite (x : Flt) (h : x.isFinite = false) : Numerics.machine.toS16 x = 0 := by
  simp [Numerics.toS16, h]

theorem numerics_toS16_of_finite (x : Flt) (h : x.isFinite = true) :
    Numerics.machine.toS16 x = Sys2Proof.toS16 x.truncQ15 := by
  simp [Numerics.toS16, h]

/-- `exp2(0) = 1`, of either zero (rule R11). -/
theorem exp2Machine_zero (x : Flt) (h : x.eq .zero = true) : exp2Machine x = .one := by simp [exp2Machine, h]

theorem vibDefaultTable_length : vibDefaultTable.length = 256 := by decide +kernel

end Sys2Proof
end

