-- ==== Sys2Proof/Laws/Flt.lean ====
section
/-! SUPPORT. Facts about the floating-point carrier that later proofs cite: comparisons on the number line, the guarded
adapters, and the integer square root behind `Flt.sqrt`. -/

namespace Sys2Proof

@[simp] theorem Flt.isFinite_zero : Flt.zero.isFinite = true := rfl
@[simp] theorem Flt.isFinite_one : Flt.one.isFinite = true := rfl

/-- A finite value is no NaN. -/
theorem Flt.isNaN_of_finite (x : Flt) (h : x.isFinite = true) : x.isNaN = false := by
  cases x <;> simp_all [Flt.isFinite, Flt.isNaN]

/-- On finite values the comparisons are those of the number line. -/
theorem Flt.lt_iff_key (x y : Flt) (hx : x.isFinite = true) (hy : y.isFinite = true) :
    x.lt y = true ↔ x.key < y.key := by
  simp [Flt.lt, Flt.isNaN_of_finite x hx, Flt.isNaN_of_finite y hy]

theorem Flt.le_iff_key (x y : Flt) (hx : x.isFinite = true) (hy : y.isFinite = true) :
    x.le y = true ↔ x.key ≤ y.key := by
  simp [Flt.le, Flt.isNaN_of_finite x hx, Flt.isNaN_of_finite y hy]

/-- What the bit-by-bit search for a square root keeps: a root not above the true one, within its remaining bits. -/
theorem isqrtFrom_spec (k : Nat) : ∀ n r : Nat, r * r ≤ n → n < (r + 2 ^ k) * (r + 2 ^ k) →
    isqrtFrom k n r * isqrtFrom k n r ≤ n ∧ n < (isqrtFrom k n r + 1) * (isqrtFrom k n r + 1) := by
  induction k with
  | zero => intro n r h1 h2; exact ⟨h1, by simpa [isqrtFrom] using h2⟩
  | succ k ih =>
    intro n r h1 h2
    rw [isqrtFrom]
    simp only [Nat.one_shiftLeft]
    split
    · next h => exact ih n _ h (by rw [pow_succ] at h2; convert h2 using 2 <;> omega)
    · next h => exact ih n r h1 (by omega)

/-- `isqrt` is the integer square root. -/
theorem isqrt_spec (n : Nat) : isqrt n * isqrt n ≤ n ∧ n < (isqrt n + 1) * (isqrt n + 1) := by
  refine isqrtFrom_spec _ n 0 (by simp) ?_
  have h : n < 2 ^ (Nat.log2 n + 1) := Nat.lt_log2_self
  have h2 : Nat.log2 n + 1 ≤ (Nat.log2 n / 2 + 1) + (Nat.log2 n / 2 + 1) := by omega
  calc n < 2 ^ (Nat.log2 n + 1) := h
    _ ≤ 2 ^ ((Nat.log2 n / 2 + 1) + (Nat.log2 n / 2 + 1)) := Nat.pow_le_pow_right (by decide) h2
    _ = _ := by rw [pow_add]; simp

end Sys2Proof
end

