-- ==== Sys2Proof/Laws/State.lean ====
section
/-! SUPPORT. The small lemmas of the state: one per field per update, each true by unfolding the update once. Later
proofs use these and unfold no record update. -/

namespace Sys2Proof.Machine


/-! ### A presented operation (Machine/Fetch.lean) -/

@[simp] theorem present_cache (s : State) (c : Command) (rest : List Command) :
    (present s c rest).cache = s.cache := (rfl)
@[simp] theorem present_envd (s : State) (c : Command) (rest : List Command) :
    (present s c rest).envd = s.envd := (rfl)
@[simp] theorem present_rvb (s : State) (c : Command) (rest : List Command) :
    (present s c rest).rvb = s.rvb := (rfl)
@[simp] theorem present_vibd (s : State) (c : Command) (rest : List Command) :
    (present s c rest).vibd = s.vibd := (rfl)
@[simp] theorem present_ch (s : State) (c : Command) (rest : List Command) :
    (present s c rest).ch = s.ch := (rfl)
@[simp] theorem present_voices (s : State) (c : Command) (rest : List Command) :
    (present s c rest).voices = s.voices := (rfl)
@[simp] theorem present_out (s : State) (c : Command) (rest : List Command) :
    (present s c rest).out = s.out := (rfl)
@[simp] theorem present_bank (s : State) (c : Command) (rest : List Command) :
    (present s c rest).bank = s.bank := (rfl)
@[simp] theorem present_src (s : State) (c : Command) (rest : List Command) :
    (present s c rest).src = s.src := (rfl)
@[simp] theorem present_breath (s : State) (c : Command) (rest : List Command) :
    (present s c rest).breath = s.breath := (rfl)
@[simp] theorem present_ports (s : State) (c : Command) (rest : List Command) :
    (present s c rest).ports = c.ports := (rfl)
@[simp] theorem present_queue (s : State) (c : Command) (rest : List Command) :
    (present s c rest).queue = rest := (rfl)
@[simp] theorem present_result (s : State) (c : Command) (rest : List Command) :
    (present s c rest).result = .none := (rfl)
@[simp] theorem presentNext_cache (s : State) (c : Command) : (presentNext s c).cache = s.cache := (rfl)
@[simp] theorem presentNext_envd (s : State) (c : Command) : (presentNext s c).envd = s.envd := (rfl)
@[simp] theorem presentNext_rvb (s : State) (c : Command) : (presentNext s c).rvb = s.rvb := (rfl)
@[simp] theorem presentNext_vibd (s : State) (c : Command) : (presentNext s c).vibd = s.vibd := (rfl)
@[simp] theorem presentNext_ch (s : State) (c : Command) : (presentNext s c).ch = s.ch := (rfl)
@[simp] theorem presentNext_voices (s : State) (c : Command) : (presentNext s c).voices = s.voices := (rfl)
@[simp] theorem presentNext_out (s : State) (c : Command) : (presentNext s c).out = s.out := (rfl)
@[simp] theorem presentNext_bank (s : State) (c : Command) : (presentNext s c).bank = s.bank := (rfl)
@[simp] theorem presentNext_src (s : State) (c : Command) : (presentNext s c).src = s.src := (rfl)
@[simp] theorem presentNext_breath (s : State) (c : Command) : (presentNext s c).breath = s.breath := (rfl)
@[simp] theorem presentNext_ports (s : State) (c : Command) : (presentNext s c).ports = s.ports := (rfl)
@[simp] theorem presentNext_queue (s : State) (c : Command) : (presentNext s c).queue = c :: s.queue := (rfl)
@[simp] theorem presentNext_result (s : State) (c : Command) : (presentNext s c).result = s.result := (rfl)

/-! ### A channel's record (Machine/Ops.lean) -/

@[simp] theorem setChannel_cache (s : State) (k : Nat) (c : ChannelState) :
    (setChannel s k c).cache = s.cache := (rfl)
@[simp] theorem setChannel_envd (s : State) (k : Nat) (c : ChannelState) :
    (setChannel s k c).envd = s.envd := (rfl)
@[simp] theorem setChannel_rvb (s : State) (k : Nat) (c : ChannelState) :
    (setChannel s k c).rvb = s.rvb := (rfl)
@[simp] theorem setChannel_vibd (s : State) (k : Nat) (c : ChannelState) :
    (setChannel s k c).vibd = s.vibd := (rfl)
@[simp] theorem setChannel_ch (s : State) (k : Nat) (c : ChannelState) :
    (setChannel s k c).ch = s.ch.set k c := (rfl)
@[simp] theorem setChannel_voices (s : State) (k : Nat) (c : ChannelState) :
    (setChannel s k c).voices = s.voices := (rfl)
@[simp] theorem setChannel_out (s : State) (k : Nat) (c : ChannelState) :
    (setChannel s k c).out = s.out := (rfl)
@[simp] theorem setChannel_bank (s : State) (k : Nat) (c : ChannelState) :
    (setChannel s k c).bank = s.bank := (rfl)
@[simp] theorem setChannel_src (s : State) (k : Nat) (c : ChannelState) :
    (setChannel s k c).src = s.src := (rfl)
@[simp] theorem setChannel_breath (s : State) (k : Nat) (c : ChannelState) :
    (setChannel s k c).breath = s.breath := (rfl)
@[simp] theorem setChannel_ports (s : State) (k : Nat) (c : ChannelState) :
    (setChannel s k c).ports = s.ports := (rfl)
@[simp] theorem setChannel_queue (s : State) (k : Nat) (c : ChannelState) :
    (setChannel s k c).queue = s.queue := (rfl)
@[simp] theorem setChannel_result (s : State) (k : Nat) (c : ChannelState) :
    (setChannel s k c).result = s.result := (rfl)
/-- The channel written reads back. -/
@[simp] theorem channelAt_set_self (ch : List ChannelState) (k : Nat) (c : ChannelState) (h : k < ch.length) :
    channelAt (ch.set k c) k = c := by
  simp [channelAt, h]

/-- Every other channel is unchanged. -/
theorem channelAt_set_ne (ch : List ChannelState) (k j : Nat) (c : ChannelState) (h : j ≠ k) :
    channelAt (ch.set k c) j = channelAt ch j := by
  simp [channelAt, List.getElem?_set_ne (Ne.symm h)]

/-- A channel of the list is one of its records. -/
theorem channelAt_mem (ch : List ChannelState) (k : Nat) (h : k < ch.length) : channelAt ch k ∈ ch := by
  simp [channelAt, h]

/-- A channel after an update of all of them. -/
theorem channelAt_map (ch : List ChannelState) (f : ChannelState → ChannelState) (k : Nat) (h : k < ch.length) :
    channelAt (ch.map f) k = f (channelAt ch k) := by
  simp [channelAt, h]

/-! ### An envelope unit entering a phase (rule R161) -/

@[simp] theorem Env.setPhase_reg (cfg : Config) (e : Env) (p : EnvPhase) :
    (Env.setPhase cfg e p).reg = e.reg := (rfl)
@[simp] theorem Env.setPhase_level (cfg : Config) (e : Env) (p : EnvPhase) :
    (Env.setPhase cfg e p).level = e.level := (rfl)
@[simp] theorem Env.setPhase_phase (cfg : Config) (e : Env) (p : EnvPhase) :
    (Env.setPhase cfg e p).phase = p := (rfl)
@[simp] theorem Env.setPhase_counter (cfg : Config) (e : Env) (p : EnvPhase) :
    (Env.setPhase cfg e p).counter = 0 := (rfl)
@[simp] theorem Env.setPhase_rate (cfg : Config) (e : Env) (p : EnvPhase) :
    (Env.setPhase cfg e p).rate = phaseRate e.reg p := (rfl)
@[simp] theorem Env.setPhase_target (cfg : Config) (e : Env) (p : EnvPhase) :
    (Env.setPhase cfg e p).target = toS16 (phaseTarget e.reg p) := (rfl)
@[simp] theorem Env.setPhase_decreasing (cfg : Config) (e : Env) (p : EnvPhase) :
    (Env.setPhase cfg e p).decreasing = phaseDecreasing e.reg p := (rfl)
@[simp] theorem Env.setPhase_exponential (cfg : Config) (e : Env) (p : EnvPhase) :
    (Env.setPhase cfg e p).exponential = phaseExponential cfg e.reg p := (rfl)

/-! ### The reverb unit's updates (rules R200, R201, R209) -/

@[simp] theorem Reverb.write_reg (cfg : Config) (rv : Reverb) (rel v : Int) : (rv.write cfg rel v).reg = rv.reg := (rfl)
@[simp] theorem Reverb.reflect_reg (cfg : Config) (rv : Reverb) (m d : RvbReg) (x : Int) :
    (rv.reflect cfg m d x).reg = rv.reg := (rfl)
@[simp] theorem Reverb.allPass_reg (cfg : Config) (rv : Reverb) (x : Int) (m d g : RvbReg) :
    (rv.allPass cfg x m d g).1.reg = rv.reg := (rfl)
@[simp] theorem Reverb.reflections_reg (cfg : Config) (rv : Reverb) (inL inR : S16) :
    (rv.reflections cfg inL inR).reg = rv.reg := by simp [Reverb.reflections]
@[simp] theorem Reverb.allPasses_reg (cfg : Config) (rv : Reverb) (l r : Int) :
    (rv.allPasses cfg l r).1.reg = rv.reg := by simp [Reverb.allPasses]
@[simp] theorem Reverb.write_cursor (cfg : Config) (rv : Reverb) (rel v : Int) :
    (rv.write cfg rel v).cursor = rv.cursor := (rfl)
@[simp] theorem Reverb.reflect_cursor (cfg : Config) (rv : Reverb) (m d : RvbReg) (x : Int) :
    (rv.reflect cfg m d x).cursor = rv.cursor := (rfl)
@[simp] theorem Reverb.allPass_cursor (cfg : Config) (rv : Reverb) (x : Int) (m d g : RvbReg) :
    (rv.allPass cfg x m d g).1.cursor = rv.cursor := (rfl)
@[simp] theorem Reverb.reflections_cursor (cfg : Config) (rv : Reverb) (inL inR : S16) :
    (rv.reflections cfg inL inR).cursor = rv.cursor := by simp [Reverb.reflections]
@[simp] theorem Reverb.allPasses_cursor (cfg : Config) (rv : Reverb) (l r : Int) :
    (rv.allPasses cfg l r).1.cursor = rv.cursor := by simp [Reverb.allPasses]
@[simp] theorem Reverb.advance_reg (cfg : Config) (rv : Reverb) : (rv.advance cfg).reg = rv.reg := (rfl)
@[simp] theorem Reverb.advance_mem (cfg : Config) (rv : Reverb) : (rv.advance cfg).mem = rv.mem := (rfl)
@[simp] theorem Reverb.clear_reg (cfg : Config) (rv : Reverb) : (rv.clear cfg).reg = rv.reg := (rfl)
@[simp] theorem Reverb.clear_mem (cfg : Config) (rv : Reverb) : (rv.clear cfg).mem = [] := (rfl)
@[simp] theorem Reverb.clear_cursor (cfg : Config) (rv : Reverb) : (rv.clear cfg).cursor = rv.base cfg := (rfl)

/-! ### The render and blend of the buffers (rules R281 and R289) -/

@[simp] theorem render_cache (cfg : Config) (n : Nat) (s : State) : (render cfg n s).cache = s.cache := (rfl)
@[simp] theorem render_envd (cfg : Config) (n : Nat) (s : State) : (render cfg n s).envd = s.envd := (rfl)
@[simp] theorem render_rvb (cfg : Config) (n : Nat) (s : State) : (render cfg n s).rvb = s.rvb := (rfl)
@[simp] theorem render_vibd (cfg : Config) (n : Nat) (s : State) : (render cfg n s).vibd = s.vibd := (rfl)
@[simp] theorem render_bank (cfg : Config) (n : Nat) (s : State) : (render cfg n s).bank = s.bank := (rfl)
@[simp] theorem render_src (cfg : Config) (n : Nat) (s : State) : (render cfg n s).src = s.src := (rfl)
@[simp] theorem render_breath (cfg : Config) (n : Nat) (s : State) : (render cfg n s).breath = s.breath := (rfl)
@[simp] theorem render_ports (cfg : Config) (n : Nat) (s : State) : (render cfg n s).ports = s.ports := (rfl)
@[simp] theorem render_queue (cfg : Config) (n : Nat) (s : State) : (render cfg n s).queue = s.queue := (rfl)
@[simp] theorem render_result (cfg : Config) (n : Nat) (s : State) : (render cfg n s).result = s.result := (rfl)
@[simp] theorem render_out_outL (cfg : Config) (n : Nat) (s : State) :
    (render cfg n s).out.outL = s.out.outL := (rfl)
@[simp] theorem render_out_outR (cfg : Config) (n : Nat) (s : State) :
    (render cfg n s).out.outR = s.out.outR := (rfl)
@[simp] theorem render_out_pcmL (cfg : Config) (n : Nat) (s : State) :
    (render cfg n s).out.pcmL = s.out.pcmL := (rfl)
@[simp] theorem render_out_pcmR (cfg : Config) (n : Nat) (s : State) :
    (render cfg n s).out.pcmR = s.out.pcmR := (rfl)
@[simp] theorem withBlend_dryL (cfg : Config) (o : OutBuffers) (fs : List (Flt × Flt)) :
    (o.withBlend cfg fs).dryL = o.dryL := (rfl)
@[simp] theorem withBlend_dryR (cfg : Config) (o : OutBuffers) (fs : List (Flt × Flt)) :
    (o.withBlend cfg fs).dryR = o.dryR := (rfl)
@[simp] theorem withBlend_wetL (cfg : Config) (o : OutBuffers) (fs : List (Flt × Flt)) :
    (o.withBlend cfg fs).wetL = o.wetL := (rfl)
@[simp] theorem withBlend_wetR (cfg : Config) (o : OutBuffers) (fs : List (Flt × Flt)) :
    (o.withBlend cfg fs).wetR = o.wetR := (rfl)

end Sys2Proof.Machine
end

