-- ==== Sys2Proof/Laws/Ops.lean ====
section
/-! SUPPORT. Finite maps and the reverb delay memory: read after write, and that every operation keeps the canonical
form. -/

namespace Sys2Proof.Machine

variable {α : Type}

@[simp] theorem SMap.find_nil (k : Nat) : SMap.find ([] : SMap α) k = none := rfl

/-- A key of an entry that `put` leaves in the map is the new key or an old one. -/
theorem SMap.mem_put (m : SMap α) (k : Nat) (v : α) (e : Nat × α) (h : e ∈ SMap.put m k v) : e = (k, v) ∨ e ∈ m := by
  induction m with
  | nil => simpa [SMap.put] using h
  | cons a t ih =>
    unfold SMap.put at h
    split at h
    · simpa using h
    · split at h
      · simp at h ⊢; tauto
      · rcases List.mem_cons.mp h with h | h
        · exact .inr (h ▸ List.mem_cons_self)
        · rcases ih h with h | h
          · exact .inl h
          · exact .inr (List.mem_cons_of_mem _ h)

theorem SMap.mem_del (m : SMap α) (k : Nat) (e : Nat × α) (h : e ∈ SMap.del m k) : e ∈ m := by
  induction m with
  | nil => simp [SMap.del] at h
  | cons a t ih =>
    unfold SMap.del at h
    split at h
    · exact List.mem_cons_of_mem _ h
    · rcases List.mem_cons.mp h with h | h
      · exact h ▸ List.mem_cons_self
      · exact List.mem_cons_of_mem _ (ih h)

/-- `put` keeps the canonical form. -/
theorem SMap.put_wf (m : SMap α) (k : Nat) (v : α) (h : SMap.wf m) : SMap.wf (SMap.put m k v) := by
  induction m with
  | nil => simp [SMap.put]
  | cons a t ih =>
    have ⟨ha, ht⟩ := List.pairwise_cons.mp h
    unfold SMap.put
    split
    · next hk =>
      refine List.pairwise_cons.mpr ⟨fun e he => ?_, h⟩
      rcases List.mem_cons.mp he with rfl | he
      · exact hk
      · exact lt_trans hk (ha e he)
    · split
      · next hk => exact List.pairwise_cons.mpr ⟨fun e he => hk ▸ ha e he, ht⟩
      · next h1 h2 =>
        refine List.pairwise_cons.mpr ⟨fun e he => ?_, ih ht⟩
        rcases SMap.mem_put t k v e he with rfl | he
        · exact lt_of_le_of_ne (not_lt.mp h1) (Ne.symm h2)
        · exact ha e he

/-- `del` keeps the canonical form. -/
theorem SMap.del_wf (m : SMap α) (k : Nat) (h : SMap.wf m) : SMap.wf (SMap.del m k) := by
  induction m with
  | nil => simp [SMap.del]
  | cons a t ih =>
    have ⟨ha, ht⟩ := List.pairwise_cons.mp h
    unfold SMap.del
    split
    · exact ht
    · exact List.pairwise_cons.mpr ⟨fun e he => ha e (SMap.mem_del t k e he), ih ht⟩

/-- Read after `put`: the new value at the key, the old ones elsewhere. -/
theorem SMap.find_put (m : SMap α) (k j : Nat) (v : α) (h : SMap.wf m) :
    SMap.find (SMap.put m k v) j = if j = k then some v else SMap.find m j := by
  induction m with
  | nil => simp [SMap.put, SMap.find, eq_comm]
  | cons a t ih =>
    have ⟨ha, ht⟩ := List.pairwise_cons.mp h
    unfold SMap.put
    split
    · simp only [SMap.find, eq_comm]
    · split
      · next hk => subst hk; simp only [SMap.find, eq_comm]; split <;> simp_all
      · next h1 h2 =>
        simp only [SMap.find, ih ht]
        split
        · next h3 => subst h3; simp [Ne.symm h2]
        · rfl

/-- A key below every key of the map is not bound. -/
theorem SMap.find_of_lt (m : SMap α) (k : Nat) (h : ∀ e ∈ m, k < e.1) : SMap.find m k = none := by
  induction m with
  | nil => rfl
  | cons a t ih =>
    have := h a List.mem_cons_self
    rw [SMap.find, if_neg (by omega)]
    exact ih fun e he => h e (List.mem_cons_of_mem _ he)

/-- Read after `del`: nothing at the key, the old values elsewhere. -/
theorem SMap.find_del (m : SMap α) (k j : Nat) (h : SMap.wf m) :
    SMap.find (SMap.del m k) j = if j = k then none else SMap.find m j := by
  induction m with
  | nil => simp [SMap.del]
  | cons a t ih =>
    have ⟨ha, ht⟩ := List.pairwise_cons.mp h
    unfold SMap.del
    split
    · next hk =>
      subst hk
      by_cases hj : j = a.1
      · subst hj; simpa using SMap.find_of_lt t _ ha
      · simp [SMap.find, hj, Ne.symm hj]
    · next hk =>
      simp only [SMap.find, ih ht]
      split
      · next h3 => subst h3; simp [hk]
      · rfl

/-- Every write keeps the delay memory's canonical form. -/
theorem Memory.write_wf (m : SMap S16) (a : Nat) (v : S16) (h : Memory.wf m) : Memory.wf (Memory.write m a v) := by
  unfold Memory.write
  split
  · exact ⟨SMap.del_wf m a h.1, fun c hc => h.2 c (SMap.mem_del m a c hc)⟩
  · next hv =>
    refine ⟨SMap.put_wf m a v h.1, fun c hc => ?_⟩
    rcases SMap.mem_put m a v c hc with rfl | hc
    · exact hv
    · exact h.2 c hc

/-- Read after write: the value written at its address, the old contents elsewhere. -/
theorem Memory.read_write (m : SMap S16) (a b : Nat) (v : S16) (h : Memory.wf m) :
    Memory.read (Memory.write m a v) b = if b = a then v else Memory.read m b := by
  unfold Memory.write Memory.read
  split
  · next hv => rw [SMap.find_del m a b h.1]; split <;> simp_all
  · rw [SMap.find_put m a b v h.1]; split <;> simp

/-- The delay memory at reset is canonical. -/
theorem reset_mem_wf : Memory.wf State.reset.rvb.mem := by
  show Memory.wf []
  exact ⟨List.Pairwise.nil, by simp⟩

/-- A write through the reverb's address computation keeps the canonical form. -/
theorem Reverb.write_mem_wf (cfg : Config) (rv : Reverb) (rel v : Int) (h : Memory.wf rv.mem) :
    Memory.wf (rv.write cfg rel v).mem := Memory.write_wf _ _ _ h

/-- A reverb read after a reverb write, both relative to the same cursor. -/
theorem Reverb.read_write (cfg : Config) (rv : Reverb) (rel j v : Int) (h : Memory.wf rv.mem) :
    (rv.write cfg rel v).read cfg j = if rv.addr cfg j = rv.addr cfg rel then sat16 v else rv.read cfg j := by
  have : (rv.write cfg rel v).addr cfg j = rv.addr cfg j := rfl
  unfold Reverb.read
  rw [this, Reverb.write, Memory.read_write _ _ _ _ h]
  split <;> simp

end Sys2Proof.Machine
end

