-- ==== Sys2Proof/Laws/PerInstr.lean ====
section
/-! SUPPORT. Statements for all instructions, made per instruction: every operation's word carries the opcode that the
opcode map of rule R99 gives it, and has the length of a command word. -/

namespace Sys2Proof.Laws.Opcode

/-- The opcode of an operation (rule R99); a data format has none. -/
def opcode : Instr → Option Nat
  | .adpcmDecode => some 0x10
  | .adpcmFetch => some 0x11
  | .envLoad => some 0x20
  | .envKeyon => some 0x21
  | .envKeyoff => some 0x22
  | .envTick => some 0x23
  | .rvbWrite _ _ => some 0x30
  | .rvbReset => some 0x31
  | .rvbStep => some 0x32
  | .rvbStepf => some 0x33
  | .vibConfig _ _ => some 0x40
  | .vibTick => some 0x41
  | .mixNoteOn _ _ _ => some 0x50
  | .mixNoteOff _ _ => some 0x51
  | .mixProgram _ _ => some 0x52
  | .mixBend _ _ => some 0x53
  | .mixCc _ _ _ => some 0x54
  | .mixRender _ => some 0x55
  | .mixBlend _ => some 0x56
  | .fmtAdpcmHdr _ _ => none
  | .fmtAdpcmFlags _ _ _ => none
  | .fmtAdsr _ _ _ _ _ _ _ _ _ _ _ => none
  | .fmtRate _ _ => none

/-- A well-formed instruction's word carries its opcode in bits 31:24. -/
def Statement (i : Instr) : Prop := i.WellFormed → opcode i = some (opOf (encode i)).toNat

theorem opOf_command (op : BitVec 8) (x : BitVec 24) : opOf (command op x) = op := by
  unfold opOf command
  ext j hj
  rw [BitVec.getElem_extractLsb', BitVec.getLsbD_append]
  simp [hj]

theorem adpcmDecode : Statement .adpcmDecode := fun _ => by decide
theorem adpcmFetch : Statement .adpcmFetch := fun _ => by decide
theorem envLoad : Statement .envLoad := fun _ => by decide
theorem envKeyon : Statement .envKeyon := fun _ => by decide
theorem envKeyoff : Statement .envKeyoff := fun _ => by decide
theorem envTick : Statement .envTick := fun _ => by decide
theorem rvbWrite (index : BitVec 8) (value : U16) : Statement (.rvbWrite index value) :=
  fun _ => by simp only [opcode, encode, opOf_command]; rfl
theorem rvbReset : Statement .rvbReset := fun _ => by decide
theorem rvbStep : Statement .rvbStep := fun _ => by decide
theorem rvbStepf : Statement .rvbStepf := fun _ => by decide
theorem vibConfig (hasShape hasDepth : Bool) : Statement (.vibConfig hasShape hasDepth) :=
  fun _ => by simp only [opcode, encode, opOf_command]; rfl
theorem vibTick : Statement .vibTick := fun _ => by decide
theorem mixNoteOn (channel : BitVec 8) (key velocity : U7) : Statement (.mixNoteOn channel key velocity) :=
  fun _ => by simp only [opcode, encode, opOf_command]; rfl
theorem mixNoteOff (channel : BitVec 8) (key : U7) : Statement (.mixNoteOff channel key) :=
  fun _ => by simp only [opcode, encode, opOf_command]; rfl
theorem mixProgram (channel : BitVec 8) (program : U7) : Statement (.mixProgram channel program) :=
  fun _ => by simp only [opcode, encode, opOf_command]; rfl
theorem mixBend (channel : BitVec 8) (bend : U7) : Statement (.mixBend channel bend) :=
  fun _ => by simp only [opcode, encode, opOf_command]; rfl
theorem mixCc (channel : BitVec 8) (number value : U7) : Statement (.mixCc channel number value) :=
  fun _ => by simp only [opcode, encode, opOf_command]; rfl
theorem mixRender (n : BitVec 24) : Statement (.mixRender n) :=
  fun _ => by simp only [opcode, encode, opOf_command]; rfl
theorem mixBlend (rev : Bool) : Statement (.mixBlend rev) :=
  fun _ => by simp only [opcode, encode, opOf_command]; rfl
theorem fmtAdpcmHdr (filterCode shiftCode : BitVec 4) : Statement (.fmtAdpcmHdr filterCode shiftCode) :=
  fun h => absurd h (by simp [Instr.WellFormed, Instr.isOperation])
theorem fmtAdpcmFlags (loopStart loopEn endBit : Bool) : Statement (.fmtAdpcmFlags loopStart loopEn endBit) :=
  fun h => absurd h (by simp [Instr.WellFormed, Instr.isOperation])
theorem fmtAdsr (susExp susDir : Bool) (susShift : BitVec 5) (susStep : BitVec 2) (relExp : Bool) (relShift : BitVec 5)
    (attExp : Bool) (attShift : BitVec 5) (attStep : BitVec 2) (decShift susLevel : BitVec 4) :
    Statement (.fmtAdsr susExp susDir susShift susStep relExp relShift attExp attShift attStep decShift susLevel) :=
  fun h => absurd h (by simp [Instr.WellFormed, Instr.isOperation])
theorem fmtRate (shift : BitVec 5) (step : BitVec 2) : Statement (.fmtRate shift step) :=
  fun h => absurd h (by simp [Instr.WellFormed, Instr.isOperation])

end Sys2Proof.Laws.Opcode
end

