-- ==== Sys2Proof/Laws/Units.lean ====
section
/-! SUPPORT. One lemma per shared operation of the units: what it can do, said once. -/

namespace Sys2Proof.Machine

/-! ### Operands -/

theorem channelOf_some (cfg : Config) (a : BitVec 8) (k : Nat) :
    channelOf cfg a = some k ↔ a.toNat = k ∧ k < cfg.numChannels := by
  unfold channelOf
  split <;> simp <;> omega

theorem channelOf_none (cfg : Config) (a : BitVec 8) : channelOf cfg a = none ↔ cfg.numChannels ≤ a.toNat := by
  simp [channelOf]

theorem rvbIndexOf_some (a : BitVec 8) (i : Fin numRvbRegs) : rvbIndexOf a = some i ↔ a.toNat = i.val := by
  unfold rvbIndexOf
  split
  · rw [Option.some.injEq, Fin.ext_iff]
  · next h => have := i.isLt; simp only [reduceCtorEq, false_iff]; omega

theorem rvbIndexOf_none (a : BitVec 8) : rvbIndexOf a = none ↔ 34 < a.toNat := by
  unfold rvbIndexOf numRvbRegs
  split <;> simp <;> omega

/-! ### The decode cache -/

/-- A fetch of a cached offset changes nothing; any other binds the decode of the host's bytes (rule R137). -/
theorem adpcmFetch_cases (cfg : Config) (src : SMap (List Byte)) (c : SMap DecodedSample) (o : Nat) :
    ((SMap.find c o).isSome = true ∧ adpcmFetch cfg src c o = c) ∨
      (SMap.find c o = none ∧ adpcmFetch cfg src c o = SMap.put c o (adpcmDecode cfg (fetchSrc src o))) := by
  unfold adpcmFetch
  split
  · next h => exact .inl ⟨by rw [h]; rfl, rfl⟩
  · next h => exact .inr ⟨h, rfl⟩

theorem adpcmFetch_wf (cfg : Config) (src : SMap (List Byte)) (c : SMap DecodedSample) (o : Nat) (h : SMap.wf c) :
    SMap.wf (adpcmFetch cfg src c o) := by
  rcases adpcmFetch_cases cfg src c o with ⟨_, e⟩ | ⟨_, e⟩ <;> rw [e]
  · exact h
  · exact SMap.put_wf _ _ _ h

/-- The length of the samples of a block (rule R132). -/
theorem adpcmNibbles_length (cfg : Config) (blk : List Byte) (sh : Int) (f : Fin 5) (k : Nat) :
    ∀ j h1 h2, (adpcmNibbles cfg blk sh f k j h1 h2).1.length = k := by
  induction k with
  | zero => intro j h1 h2; rfl
  | succ k ih => intro j h1 h2; simp [adpcmNibbles, ih]

@[simp] theorem decodeBlock_pcm_length (cfg : Config) (blk : List Byte) (d : DecoderState) :
    (decodeBlock cfg blk d).pcm.length = d.pcm.length + cfg.adpcmBlockSamples := by
  simp [decodeBlock, adpcmBlock, adpcmNibbles_length]

/-! ### The envelope -/

@[simp] theorem Env.applyStep_reg (cfg : Config) (e : Env) : (Env.applyStep cfg e).reg = e.reg := by
  unfold Env.applyStep; dsimp only; split <;> rfl
@[simp] theorem Env.applyStep_phase (cfg : Config) (e : Env) : (Env.applyStep cfg e).phase = e.phase := by
  unfold Env.applyStep; dsimp only; split <;> rfl
@[simp] theorem Env.applyStep_decreasing (cfg : Config) (e : Env) :
    (Env.applyStep cfg e).decreasing = e.decreasing := by
  unfold Env.applyStep; dsimp only; split <;> rfl
@[simp] theorem Env.applyStep_target (cfg : Config) (e : Env) : (Env.applyStep cfg e).target = e.target := by
  unfold Env.applyStep; dsimp only; split <;> rfl

/-- The level of a tick before the phase sequencing: unchanged where the counter does not reach the threshold, else
the clamped sum (rule R165). -/
theorem Env.applyStep_level (cfg : Config) (e : Env) :
    (Env.applyStep cfg e).level =
      if cfg.envCtrThreshold ≤ e.counter.toNat + tickInc cfg e then
        toS16 (clampLevel cfg e.decreasing (e.level.toInt + tickStep cfg e))
      else e.level := by
  unfold Env.applyStep; dsimp only; split <;> rfl

/-- `Advance` keeps the unit or enters the next phase, whose direction of reaching the target holds (rule R166). -/
theorem Env.advance_cases (cfg : Config) (e : Env) :
    Env.advance cfg e = e ∨
      (e.reached = true ∧
        ((e.phase = .attack ∧ Env.advance cfg e = Env.setPhase cfg e .decay) ∨
         (e.phase = .decay ∧ Env.advance cfg e = Env.setPhase cfg e .sustain) ∨
         (e.phase = .release ∧ Env.advance cfg e = Env.setPhase cfg e .off))) := by
  cases hp : e.phase <;> cases hr : e.reached <;> simp [Env.advance, hp, hr]

@[simp] theorem Env.advance_reg (cfg : Config) (e : Env) : (Env.advance cfg e).reg = e.reg := by
  rcases Env.advance_cases cfg e with h | ⟨_, ⟨_, h⟩ | ⟨_, h⟩ | ⟨_, h⟩⟩ <;> simp [h]

@[simp] theorem Env.advance_level (cfg : Config) (e : Env) : (Env.advance cfg e).level = e.level := by
  rcases Env.advance_cases cfg e with h | ⟨_, ⟨_, h⟩ | ⟨_, h⟩ | ⟨_, h⟩⟩ <;> simp [h]

/-- A tick never writes the register (rule R25). -/
@[simp] theorem Env.tick_reg (cfg : Config) (e : Env) : (Env.tick cfg e).reg = e.reg := by
  unfold Env.tick; split <;> simp

/-- KeyOff does nothing in Off and Release, and enters Release from every other phase (rule R164). -/
theorem Env.keyOff_cases (cfg : Config) (e : Env) :
    ((e.phase = .off ∨ e.phase = .release) ∧ Env.keyOff cfg e = e) ∨
      (e.phase ≠ .off ∧ e.phase ≠ .release ∧ Env.keyOff cfg e = Env.setPhase cfg e .release) := by
  unfold Env.keyOff
  split
  · next h => exact .inl ⟨h, rfl⟩
  · next h => exact .inr ⟨fun e1 => h (.inl e1), fun e1 => h (.inr e1), rfl⟩

/-! ### The reverb -/

/-- With the default parameters the base lies below the end of the memory (rule R202). -/
theorem Reverb.base_lt (rv : Reverb) : rv.base Config.machine < 262144 := by
  simpa [Reverb.base, Reverb.offs] using samp_default_lt _

theorem Reverb.span_pos (rv : Reverb) : 0 < rv.span Config.machine := by
  have := rv.base_lt
  simp [Reverb.span, this]

theorem Reverb.span_ne_zero (rv : Reverb) : rv.span Config.machine ≠ 0 := Nat.pos_iff_ne_zero.mp rv.span_pos

/-- Every address is in the working region `[BASE, END)` (rules R69 and R202). -/
theorem Reverb.addr_bounds (rv : Reverb) (rel : Int) :
    rv.base Config.machine ≤ rv.addr Config.machine rel ∧ rv.addr Config.machine rel < 262144 := by
  have hb := rv.base_lt
  have hs := rv.span_pos
  have he : rv.span Config.machine = 262144 - rv.base Config.machine := by simp [Reverb.span]
  have h1 := Int.emod_nonneg ((rv.cursor : Int) - rv.base Config.machine + rel)
    (b := (rv.span Config.machine : Int)) (by omega)
  have h2 := Int.emod_lt_of_pos ((rv.cursor : Int) - rv.base Config.machine + rel)
    (b := (rv.span Config.machine : Int)) (by omega)
  unfold Reverb.addr
  omega

/-- A reverb step never writes a register. -/
@[simp] theorem Reverb.stepFrame_reg (cfg : Config) (rv : Reverb) (inL inR : S16) :
    (rv.stepFrame cfg inL inR).1.reg = rv.reg := by
  simp [Reverb.stepFrame]

theorem Reverb.base_of_reg (cfg : Config) (a b : Reverb) (h : a.reg = b.reg) : a.base cfg = b.base cfg := by
  unfold Reverb.base Reverb.offs; rw [h]

/-- The cursor after a step (rule R209). -/
theorem Reverb.stepFrame_cursor (cfg : Config) (rv : Reverb) (inL inR : S16) :
    (rv.stepFrame cfg inL inR).1.cursor =
      if cfg.rvbMemSamples ≤ rv.cursor + 1 then rv.base cfg else rv.cursor + 1 := by
  have h : ∀ r : Reverb, r.cursor = rv.cursor → r.reg = rv.reg → (r.advance cfg).cursor =
      if cfg.rvbMemSamples ≤ rv.cursor + 1 then rv.base cfg else rv.cursor + 1 := by
    intro r h1 h2
    rw [← Reverb.base_of_reg cfg r rv h2, ← h1]
    rfl
  exact h _ (by simp) (by simp)

/-! ### The mixer -/

/-- The voices after `addVoices`: the old ones, then one per Tone, in order (rule R270). -/
theorem addVoices_voices (cfg : Config) (src : SMap (List Byte)) (b : SMap BreathTable) (k : Nat)
    (c : ChannelState) (key vel : U7) (p : Program) (ts : List Tone) :
    ∀ (m : SMap DecodedSample) (vs : List Voice),
      (addVoices cfg src b k c key vel p ts m vs).2 = vs ++ ts.map (newVoice cfg b k c key vel p) := by
  induction ts with
  | nil => intro m vs; simp [addVoices]
  | cons t ts ih => intro m vs; simp [addVoices, ih]

/-- Stepping the voices keeps their number and order. -/
@[simp] theorem stepVoices_length (cfg : Config) (m : SMap DecodedSample) (ch : List ChannelState)
    (lfo : Nat → Flt) (vs : List Voice) :
    ∀ acc, (stepVoices cfg m ch lfo vs acc).1.length = vs.length := by
  induction vs with
  | nil => intro acc; rfl
  | cons v vs ih => intro acc; simp [stepVoices, ih]

/-- A voice that is not active is passed over (rules R281 and R288). -/
theorem stepVoices_inactive (cfg : Config) (m : SMap DecodedSample) (ch : List ChannelState)
    (lfo : Nat → Flt) (v : Voice) (vs : List Voice) (acc : Frame) (h : v.active = false) :
    stepVoices cfg m ch lfo (v :: vs) acc =
      (v :: (stepVoices cfg m ch lfo vs acc).1, (stepVoices cfg m ch lfo vs acc).2) := by
  simp [stepVoices, h]

/-- A render makes one frame per sample. -/
@[simp] theorem renderSamples_length (cfg : Config) (m : SMap DecodedSample) (n : Nat) :
    ∀ x, (renderSamples cfg m n x).2.length = n := by
  induction n with
  | zero => intro x; rfl
  | succ n ih => intro x; simp [renderSamples, ih]

/-- Of a channel a sample of `MIX.RENDER` changes only the modulation phase (rules R281 and R291). -/
theorem renderSamples_ch (cfg : Config) (m : SMap DecodedSample) (n : Nat) : ∀ x, (renderSamples cfg m n x).1.ch =
    x.ch.map ((fun c : ChannelState => { c with lfoPhase := cfg.lfoAdvance c })^[n]) := by
  induction n with
  | zero => intro x; simp [renderSamples]
  | succ n ih => intro x; simp [renderSamples, ih, renderSample]

/-! ### Vibrato -/

/-- `Wrap` gives 0 or a finite phase that is not negative and not beyond the table (rule R244). -/
theorem wrapPhase_cases (cfg : Config) (p : Flt) (len : Nat) :
    wrapPhase cfg p len = .zero ∨
      (cfg.num.isFinite (wrapPhase cfg p len) = true ∧ (wrapPhase cfg p len).lt .zero = false ∧
        (cfg.num.ofNat len).le (wrapPhase cfg p len) = false) := by
  simp only [wrapPhase]
  split
  · exact .inl rfl
  · rename_i h
    simp only [Bool.or_eq_true, Bool.not_eq_true', not_or, Bool.not_eq_false, Bool.not_eq_true] at h
    exact .inr ⟨h.1.1, h.1.2, h.2⟩

@[simp] theorem Vib.tick_shape (cfg : Config) (v : Vib) (r d : Flt) : (v.tick cfg r d).1.shape = v.shape := (rfl)
@[simp] theorem Vib.tick_hasDepth (cfg : Config) (v : Vib) (r d : Flt) : (v.tick cfg r d).1.hasDepth = v.hasDepth := (rfl)
@[simp] theorem Vib.tick_depthTab (cfg : Config) (v : Vib) (r d : Flt) : (v.tick cfg r d).1.depthTab = v.depthTab := (rfl)
@[simp] theorem Vib.tick_depth (cfg : Config) (v : Vib) (r d : Flt) : (v.tick cfg r d).1.depth = v.depth := (rfl)

/-! ### A voice -/

/-- A voice whose envelope is in Off after its tick retires and leaves the frame as it was (rules R282 and R288). -/
theorem Voice.step_off (cfg : Config) (m : SMap DecodedSample) (c : ChannelState) (lfo : Flt) (v : Voice) (acc : Frame)
    (h : (Env.tick cfg v.env).phase = .off) :
    v.step cfg m c lfo acc = ({ v with env := Env.tick cfg v.env, active := false }, acc) := by
  simp [Voice.step, h]

/-- The portamento step changes only the glide flag and multiplier (rule R282, step 2). -/
theorem Voice.glideStep_frame (cfg : Config) (v : Voice) :
    ∃ g p, v.glideStep cfg = { v with glide := g, porta := p } := by
  simp only [Voice.glideStep]
  repeat' split
  all_goals exact ⟨_, _, rfl⟩

/-- The vibrato step changes only the two phases (rule R282, step 3). -/
theorem Voice.vibStep_frame (cfg : Config) (v : Voice) :
    ∃ ph dph, (v.vibStep cfg).1 = { v with vib := { v.vib with phase := ph, depthPhase := dph } } := by
  simp only [Voice.vibStep]
  split
  all_goals exact ⟨_, _, rfl⟩

/-- Fetching a sample changes only the position, the noise fields and the active flag (rules R283 and R284). -/
theorem Voice.fetch_frame (cfg : Config) (m : SMap DecodedSample) (v : Voice) (x : Flt) :
    ∃ act pos na ns st, (v.fetch cfg m x).1 =
      { v with active := act, pos := pos, noiseAcc := na, noiseSample := ns, noiseState := st } := by
  simp only [Voice.fetch, Voice.noiseStep, Voice.pitchedSample]
  repeat' split
  all_goals exact ⟨_, _, _, _, _, rfl⟩

/-- What one sample can change of a voice (rule R282): its envelope ticks; glide, phases, position, noise fields and the
active flag may change, and nothing else. -/
theorem Voice.step_frame (cfg : Config) (m : SMap DecodedSample) (c : ChannelState) (lfo : Flt) (v : Voice) (acc : Frame) :
    ∃ g p ph dph act pos na ns st, (v.step cfg m c lfo acc).1 = { v with
      env := Env.tick cfg v.env
      glide := g
      porta := p
      vib := { v.vib with phase := ph, depthPhase := dph }
      active := act
      pos := pos
      noiseAcc := na
      noiseSample := ns
      noiseState := st } := by
  simp only [Voice.step]
  split
  · exact ⟨_, _, _, _, _, _, _, _, _, rfl⟩
  · rw [apply_ite Prod.fst, ite_self]
    obtain ⟨g, p, hg⟩ := Voice.glideStep_frame cfg { v with env := Env.tick cfg v.env }
    obtain ⟨ph, dph, hv⟩ := Voice.vibStep_frame cfg (Voice.glideStep cfg { v with env := Env.tick cfg v.env })
    rw [hv, hg]
    obtain ⟨act, pos, na, ns, st, hf⟩ := Voice.fetch_frame cfg m _ _
    exact ⟨_, _, _, _, _, _, _, _, _, hf⟩

/-- The accumulators a sample is added to do not change how a voice advances (rule R282). -/
theorem Voice.step_acc (cfg : Config) (m : SMap DecodedSample) (c : ChannelState) (lfo : Flt) (v : Voice) (a b : Frame) :
    (v.step cfg m c lfo a).1 = (v.step cfg m c lfo b).1 := by
  simp only [Voice.step]
  split
  · rfl
  · split <;> rfl

/-! ### One step -/

/-- What a step is: idle, a decoded operation, or an ignored reserved opcode. -/
theorem step_cases (s : State) :
    (s.queue = [] ∧ step s = .next s) ∨
      ∃ c rest, s.queue = c :: rest ∧
        ((∃ i, decode c.word = .ok i ∧ step s = exec i (present s c rest)) ∨
         (∃ e, decode c.word = .error e ∧ step s = .next (present s c rest))) := by
  unfold step
  cases hq : s.queue with
  | nil => exact .inl ⟨rfl, rfl⟩
  | cons c rest =>
    refine .inr ⟨c, rest, rfl, ?_⟩
    cases hd : decode c.word with
    | ok i => exact .inl ⟨i, rfl, by simp [hd]⟩
    | error e => exact .inr ⟨e, rfl, by simp [hd, ignored]⟩

end Sys2Proof.Machine
end

