-- ==== Sys2Proof/Tests/Slice0.lean ====
section
/-! SUPPORT. Tests: each is one decoding or one operation on a small state, with the expected value taken from the spec
(the vector, rule or section is named in the comment) and not from the model. At the end, one witness per obligation that
has hypotheses: a concrete state and operands that meet them all. -/

open Sys2Proof Sys2Proof.Machine Host

namespace Sys2Proof.Tests

/-! The theorems of this file are checked one after another: each waits for the kernel, and in one joined file their
threads would exceed the memory limit. -/
set_option Elab.async false

/-- A value of the state an operation ends in, if it ends in one. -/
def after {α : Type} (o : Outcome State Fault Refusal) (f : State → α) : Option α :=
  match o with
  | .next t => some (f t)
  | .fault _ => none
  | .refused _ => none

/-- The reset state with given port operands. -/
def atPorts (p : Ports) : State := { State.reset with ports := p }

/-! ## Well-formedness: each data format is refused -/

theorem test_wf_hdr : ¬ (Instr.fmtAdpcmHdr 0 12).WellFormed := by decide
theorem test_wf_flags : ¬ (Instr.fmtAdpcmFlags true false true).WellFormed := by decide
theorem test_wf_adsr : ¬ (Instr.fmtAdsr false false 0 0 false 0 false 0 0 0 15).WellFormed := by decide
theorem test_wf_rate : ¬ (Instr.fmtRate 31 3).WellFormed := by decide
theorem test_wf_operation : (Instr.mixNoteOn 16 60 127).WellFormed := by decide
theorem test_wf_refused : exec (.fmtRate 31 3) State.reset = .refused .dataFormat := rfl

/-! ## Decoding: words written bit by bit from the opcode map of rule R99 -/

theorem test_decode_adpcmDecode : decodeTableWord 32 0b00010000000000000000000000000000 = some .adpcmDecode := by decide
theorem test_decode_adpcmFetch : decodeTableWord 32 0x11000000 = some .adpcmFetch := by decide
theorem test_decode_envLoad : decodeTableWord 32 0b00100000000000000000000000000000 = some .envLoad := by decide
theorem test_decode_envKeyon : decodeTableWord 32 0x21000000 = some .envKeyon := by decide
theorem test_decode_envKeyoff : decodeTableWord 32 0x22000000 = some .envKeyoff := by decide
theorem test_decode_envTick : decodeTableWord 32 0x23000000 = some .envTick := by decide
/-- `RVB.WRITE 34, 0xFFF0` (95_test_vectors.md section 4). -/
theorem test_decode_rvbWrite : decodeTableWord 32 0b00110000001000101111111111110000 = some (.rvbWrite 34 0xFFF0) := by
  decide
theorem test_decode_rvbReset : decodeTableWord 32 0x31000000 = some .rvbReset := by decide
theorem test_decode_rvbStep : decodeTableWord 32 0x32000000 = some .rvbStep := by decide
theorem test_decode_rvbStepf : decodeTableWord 32 0x33000000 = some .rvbStepf := by decide
/-- Bit 0 of `a` is the shape flag, bit 1 the depth flag (rule R240). -/
theorem test_decode_vibConfig : decodeTableWord 32 0b01000000000000100000000000000000 = some (.vibConfig false true) := by
  decide
theorem test_decode_vibConfig_shape : decodeTableWord 32 0x40010000 = some (.vibConfig true false) := by decide
theorem test_decode_vibTick : decodeTableWord 32 0x41000000 = some .vibTick := by decide
/-- Bit 7 of `b` and of `c` is ignored (rule R100): `b` = 1_0111100, `c` = 1_1111111. -/
theorem test_decode_mixNoteOn : decodeTableWord 32 0b01010000000100001011110011111111 = some (.mixNoteOn 16 60 127) := by
  decide
theorem test_decode_mixNoteOff : decodeTableWord 32 0x51013C00 = some (.mixNoteOff 1 60) := by decide
/-- M2, M6, M7 and M5 of 95_test_vectors.md section 6. -/
theorem test_decode_mixProgram : decodeTableWord 32 0x52020100 = some (.mixProgram 2 1) := by decide
theorem test_decode_mixBend : decodeTableWord 32 0x53004000 = some (.mixBend 0 64) := by decide
theorem test_decode_mixCc : decodeTableWord 32 0x5400075A = some (.mixCc 0 7 90) := by decide
theorem test_decode_mixRender : decodeTableWord 32 0b01010101000000010101100010001000 = some (.mixRender 88200) := by decide
theorem test_decode_mixBlend : decodeTableWord 32 0x56010000 = some (.mixBlend true) := by decide
/-- Operand bytes an operation does not use are ignored (rule R99). -/
theorem test_decode_unused : decodeTableWord 32 0x23FFFFFF = some .envTick := by decide
/-- Reserved opcodes (rule R101), one beside each unit's block. -/
theorem test_decode_reserved : [0x00, 0x0F, 0x12, 0x24, 0x34, 0x42, 0x57, 0xFF].map
    (fun op => decodeTableWord 32 (op * 2 ^ 24)) = List.replicate 8 none := by decide
/-- Header `7F` of vector A5: filter code 7, shift code 15. -/
theorem test_decode_fmtAdpcmHdr : decodeAdpcmHdr 0b01111111 = .fmtAdpcmHdr 7 15 := by decide
/-- Flag byte with the ignored bits set: loop start and end, no loop (rule R92). -/
theorem test_decode_fmtAdpcmFlags : decodeAdpcmFlags 0b11111101 = .fmtAdpcmFlags true false true := by decide
/-- E7's register `0xC0C0000F` (95_test_vectors.md section 3), with bit 29 set as well. -/
theorem test_decode_fmtAdsr : decodeAdsr 0b11100000110000000000000000001111 =
    .fmtAdsr true true 0 3 false 0 false 0 0 0 15 := by decide
/-- Rate 109 is shift 27, step 1 (rule R96). -/
theorem test_decode_fmtRate : decodeRate 0b1101101 = .fmtRate 27 1 := by decide

/-! ## ADPCM -/

/-- The data bytes "D" of 95_test_vectors.md section 2. -/
def dataD : List Byte := [0x10, 0x32, 0x54, 0x76, 0x98, 0xBA, 0xDC, 0xFE, 0x10, 0x32, 0x54, 0x76, 0x98, 0xBA]

/-- Vector A10's block: filter 3, shift 2. -/
def blockA10 : List Byte := [0x3A, 0x00, 0x35, 0xF0] ++ List.replicate 12 0

/-- Vector A7's four blocks and five stray bytes. -/
def bufA7 : List Byte :=
  [0x0C, 0x04] ++ List.replicate 14 0x10 ++ ([0x0C, 0x04] ++ List.replicate 14 0x21) ++
    ([0x0C, 0x03] ++ List.replicate 14 0xF0) ++ ([0x0C, 0x00] ++ List.replicate 14 0x77) ++ [1, 2, 3, 4, 5]

/-- A10. -/
theorem test_adpcmDecode_filter : after (exec .adpcmDecode (atPorts { Ports.idle with buf := blockA10 })) State.result =
    some (.decoded
      { pcm := [20, 43, 49, 34, 10, -14, -30, -34, -26, -11, 6, 19, 24, 20, 10, -2, -12, -17, -16, -10, -2, 6, 11, 12, 9, 3,
          -3, -7]
        loopStart := 0
        loopEnd := 28
        looping := false }) := by decide +kernel
/-- A7: length and loop data. -/
theorem test_adpcmDecode_loop :
    (fun d : DecodedSample => (d.pcm.length, d.loopStart, d.loopEnd, d.looping)) (adpcmDecode Config.machine bufA7) =
      (84, 28, 84, true) := by decide +kernel

/-- A state whose host supplies A1's bytes at offset 0 (program P2). -/
def hostA1 : State := { State.reset with src := [(0, [0x0C, 0x00] ++ dataD)] }

/-- P2: the first fetch binds offset 0 to A1's samples. -/
theorem test_adpcmFetch_binds : after (exec .adpcmFetch hostA1) State.cache =
    some [(0, { pcm := [0, 1, 2, 3, 4, 5, 6, 7, -8, -7, -6, -5, -4, -3, -2, -1, 0, 1, 2, 3, 4, 5, 6, 7, -8, -7, -6, -5]
                loopStart := 0
                loopEnd := 28
                looping := false })] := by decide +kernel
/-- A missing buffer decodes to the empty sample (rules R70 and R136). -/
theorem test_adpcmFetch_missing : after (exec .adpcmFetch (atPorts { Ports.idle with offset := 7 })) State.cache =
    some [(7, { pcm := [], loopStart := 0, loopEnd := 0, looping := false })] := by decide +kernel

/-! ## Envelope -/

/-- The direct unit loaded with a register and keyed on. -/
def keyed (reg : U32) : Env := Env.keyOn Config.machine { Env.fresh with reg := reg }

/-- The reset state with a given direct envelope unit. -/
def withEnv (e : Env) : State := { State.reset with envd := e }

/-- Rule R95: `reg = adsr_hi ++ adsr_lo`. -/
theorem test_envLoad : after (exec .envLoad (atPorts { Ports.idle with lo16 := 0x800F, hi16 := 0x001F })) State.envd =
    some { Env.fresh with reg := 0x001F800F } := by decide +kernel
/-- Rule R163's example. -/
theorem test_envKeyon : after (exec .envKeyon (withEnv { Env.fresh with level := 500, phase := .sustain })) State.envd =
    some { Env.fresh with phase := .attack, step := 14336, inc := 0x8000, target := 32767 } := by decide +kernel
/-- E1 after tick 13: KeyOff keeps the level. -/
theorem test_envKeyoff : after (exec .envKeyoff (withEnv { keyed 0 with phase := .sustain, level := 32767 }))
    (fun t => (t.envd.phase, t.envd.level, t.envd.step)) = some (.release, 32767, -14336) := by decide +kernel
/-- E1, tick 3: the level saturates and the phase becomes Decay. -/
theorem test_envTick_attack : after (exec .envTick (withEnv { keyed 0 with level := 28672 })) State.result =
    some (.level 32767 .decay) := by decide +kernel
/-- E2, tick 3: an exponential attack at 0x6000 or above halves its step; without that the level would be the same, so the
halved step is looked at from 24576: 24576 + 7168. -/
theorem test_envTick_slow : after (exec .envTick (withEnv { keyed 0x800F with level := 24576 })) State.result =
    some (.level 31744 .attack) := by decide +kernel

/-! ## Reverb -/

/-- The reverb with some registers of the set S of 95_test_vectors.md section 4: `vIIR`, `vLIN`, `vRIN`, `mLSAME`,
`mRSAME`. -/
def reverbS : Reverb :=
  { Reverb.fresh Config.machine with
    reg := (((((Vector.replicate 35 0).set 2 0x4000).set 30 0x4000).set 31 0x4000).set 10 0x10).set 11 0x20 }

/-- `RVB.WRITE 34, 0xFFF0` sets the base and the cursor to 262080 (95_test_vectors.md section 4). -/
theorem test_rvbWrite : after (exec (.rvbWrite 34 0xFFF0) State.reset) (fun t => (t.rvb.cursor, t.rvb.reg[34])) =
    some (262080, 0xFFF0) := by decide +kernel
/-- An index above 34 does nothing (rule R100). -/
theorem test_rvbWrite_ignored : after (exec (.rvbWrite 35 1) State.reset) State.rvb = some State.reset.rvb := by
  decide +kernel
/-- Rule R201. -/
theorem test_rvbReset : after (exec .rvbReset { State.reset with rvb := { reverbS with mem := [(5, 9)], cursor := 77 } })
    State.rvb = some reverbS := by decide +kernel
/-- Section 4's `Reflect` example through V1's step 0: `16384` in, times 0.5 and 0.5, lands at `mem[64]` as 4096. -/
theorem test_rvbStep : after (exec .rvbStep { State.reset with rvb := reverbS, ports := { Ports.idle with inL := 16384 } })
    (fun t => (Memory.read t.rvb.mem 64, t.rvb.cursor)) = some (4096, 1) := by decide +kernel
/-- `RVB.STEPF inL=0.5 inR=-0.5` enters as (16384, -16384): the cells of V1's step 0. -/
theorem test_rvbStepf : after (exec .rvbStepf
      { State.reset with rvb := reverbS, ports := { Ports.idle with inFL := .half, inFR := Flt.half.negate } })
    (fun t => (Memory.read t.rvb.mem 64, Memory.read t.rvb.mem 128)) = some (4096, -4096) := by decide +kernel

/-! ## Vibrato -/

/-- W1's unit: shape `[127, 255, 127, 0]`, depth 2. -/
def vibW1 : Vib :=
  { shape := [127, 255, 127, 0], hasDepth := false, depthTab := [], phase := .zero, depthPhase := .zero, depth := .ofNat 2 }

/-- `NeutralIndex([0, 100, 200, 130, 124]) = 3` (rule R243). -/
theorem test_vibConfig_neutral : after (exec (.vibConfig true false)
      (atPorts { Ports.idle with shape := [0, 100, 200, 130, 124], depth := .one }))
    (fun t => (t.vibd.phase, t.vibd.depth)) =
    some (.ofNat 3, .one) := by decide +kernel
/-- `Smooth([0, 255, 255, 0, 0, 0])` (rule R242). -/
theorem test_vibConfig_smooth : after (exec (.vibConfig false true)
      (atPorts { Ports.idle with depthRaw := [0, 255, 255, 0, 0, 0] })) (fun t => t.vibd.depthTab) =
    some ([85, 170, 170, 85, 0, 85].map Flt.ofNat) := by decide +kernel
/-- W1, tick 2: phase 1, output 2. -/
theorem test_vibTick : after (exec .vibTick
      { State.reset with vibd := { vibW1 with phase := .half }, ports := { Ports.idle with rate := .half } })
    (fun t => (t.vibd.phase, t.result)) = some (.one, .semis (.ofNat 2)) := by decide +kernel
/-- `Wrap(-0.5, 4) = 3.5` (rule R244). -/
theorem test_vibTick_wraps : after (exec .vibTick
      { State.reset with vibd := vibW1, ports := { Ports.idle with rate := Flt.half.negate } })
    (fun t => t.vibd.phase) = some ((Flt.ofNat 7).div (.ofNat 2)) := by decide +kernel

/-! ## Mixer -/

/-- Tone X0 of 95_test_vectors.md section 6. -/
def toneX0 : Tone where
  keyMin := 0
  keyMax := 127
  root := 60
  fine := 0
  sampleOffset := 0
  adsrLo := 0x000F
  adsrHi := 0
  volume := 127
  pan := 0
  pitchMult := .zero
  breath := 0
  noise := false
  reverb := true
  useProgramPitch := false
  useModulation := false
  useProgramBreath := false
  highPriority := false

/-- A Program with the volume and pitch multiplier of section 6. -/
def program6 (m : ProgMode) (ts : List Tone) : Program where
  tones := ts
  mode := m
  volume := 127
  pan := 64
  pitchMult := .ofNat 2
  defaultBreath := 0

/-- The decode of sample X: 16384, -16384, 0, 8192, 16384 and zeros, looping. -/
def sampleX : DecodedSample :=
  { pcm := [16384, -16384, 0, 8192, 16384] ++ List.replicate 23 0, loopStart := 0, loopEnd := 28, looping := true }

/-- The bank and the buffers of section 6. -/
def hostX : State :=
  { State.reset with
    bank := [program6 .split [toneX0], program6 .sfx [toneX0], program6 .split [{ toneX0 with keyMin := 61 }]]
    src := [(0, [0x00, 0x03, 0xC4, 0x20, 0x04] ++ List.replicate 11 0)] }

/-- A voice of program 0 on channel 0, key 60, at its first sample. -/
def voiceX : Voice where
  env := keyed 0x0000000F
  vib := vibW1
  vibOn := false
  vibRate := .zero
  vibDrate := .zero
  sample := some 0
  pos := .zero
  base := .one
  glide := false
  porta := .one
  portaStep := .one
  channel := 0
  key := 60
  velocity := 127
  tone := toneX0
  program := program6 .split [toneX0]
  pitchMult := .zero
  active := true
  releasePending := false
  noiseAcc := .zero
  noiseSample := 0
  noiseState := 0

/-- `hostX` with that voice sounding. -/
def playing : State := { hostX with cache := [(0, sampleX)], voices := [voiceX] }

/-- P4: a note-on makes a voice at base ratio 1 and sets the last pitch. -/
theorem test_mixNoteOn : after (exec (.mixNoteOn 0 60 127) hostX)
    (fun t => (t.voices.map (fun v => (v.base, v.sample)), (channelAt t.ch 0).lastPitch, t.cache)) =
      some ([(.one, some 0)], .ofNat 60, [(0, sampleX)]) := by decide +kernel
/-- M6: a program number beyond the bank is ignored. -/
theorem test_mixNoteOn_ignored : after (exec (.mixNoteOn 3 60 127) { hostX with bank := [] })
    (fun t => (t.voices.length, t.cache.length, (channelAt t.ch 3).hasLast)) = some (0, 0, false) := by decide +kernel
/-- P4 and P5: key-off at once, or deferred where the pedal is down. -/
theorem test_mixNoteOff : after (exec (.mixNoteOff 0 60) playing)
    (fun t => t.voices.map (fun v => (v.env.phase, v.releasePending))) = some [(.release, false)] := by decide +kernel
theorem test_mixNoteOff_deferred : after (exec (.mixNoteOff 0 60)
      { playing with ch := playing.ch.set 0 { chDefaults with sustain := true } })
    (fun t => t.voices.map (fun v => (v.env.phase, v.releasePending))) = some [(.attack, true)] := by decide +kernel
/-- Rule R276's example. -/
theorem test_mixProgram : after (exec (.mixProgram 3 5) State.reset)
    (fun t => ((channelAt t.ch 3).program, (channelAt t.ch 2).program)) =
    some (5, 0) := by decide +kernel
/-- M7: bend value 64 gives 1.0. -/
theorem test_mixBend : after (exec (.mixBend 0 64) { hostX with ch := hostX.ch.set 0 { chDefaults with bend := .half } })
    (fun t => (channelAt t.ch 0).bend) = some .one := by decide +kernel
/-- M7's second row in an instance whose `exp2(-1)` is 0.5. -/
theorem test_bendRatio : bendRatio { Config.machine with num :=
      { Numerics.machine with exp2 := fun x => if x.eq Flt.one.negate then .half else .nan } } 0 (.ofNat 12) = .half := by
  decide +kernel
/-- Rule R278's example, and the portamento switch at 64. -/
theorem test_mixCc : after (exec (.mixCc 0 7 100) State.reset)
    (fun t => ((channelAt t.ch 0).volume, (channelAt t.ch 0).expression)) =
    some (100, 127) := by decide +kernel
theorem test_mixCc_switch : (after (exec (.mixCc 0 65 63) State.reset) (fun t => (channelAt t.ch 0).portaOn),
    after (exec (.mixCc 0 65 64) State.reset) (fun t => (channelAt t.ch 0).portaOn)) = (some false, some true) := by
  decide +kernel
/-- P4's first sample: 0.5 * 14336 / 32768 = 7/32, pan hard left, send at full depth. -/
theorem test_mixRender : after (exec (.mixRender 1) playing) (fun t => (t.out.dryL, t.out.dryR, t.out.wetL)) =
    some ([(Flt.ofNat 7).div (.ofNat 32)], [.zero], [(Flt.ofNat 7).div (.ofNat 32)]) := by decide +kernel
/-- Rule R283's example: at position 0.25 between 16384 and -16384 the sample is 0.25. -/
theorem test_fetchAt : fetchAt Config.machine sampleX (Flt.half.mul .half) = Flt.half.mul .half := by decide +kernel
/-- M1: `7/32` blends to 7168. -/
theorem test_mixBlend : after (exec (.mixBlend false) { State.reset with out :=
      { OutBuffers.empty with dryL := [(Flt.ofNat 7).div (.ofNat 32)], dryR := [.zero], wetL := [.zero]
                              wetR := [.zero] } })
    (fun t => (t.out.pcmL, t.out.pcmR)) = some ([7168], [0]) := by decide +kernel
/-- `f_to_s16` of 1.0, -1.0 and 1.5 (95_test_vectors.md section 4). -/
theorem test_adapter : [Flt.one, Flt.one.negate, (Flt.ofNat 3).mul .half, .nan].map Numerics.machine.toS16 =
    [32767, -32768, 32767, 0] := by decide +kernel
/-- P6: at 120 beats and 480 ticks a quarter, 480 ticks are 22050 samples and one tick is 45. -/
theorem test_ticksToSamples : (ticksToSamples Config.machine 480 (.ofNat 120) 480,
    ticksToSamples Config.machine 1 (.ofNat 120) 480) = (22050, 45) := by decide +kernel

/-! ## The step -/

/-- A presented `RVB.WRITE 34, 0xFFF0` runs as the first operation after reset. -/
theorem test_step : after (step (State.reset.withFetchWord 32 0x3022FFF0)) (fun t => (t.rvb.cursor, t.queue)) =
    some (262080, []) := by decide +kernel
/-- A reserved opcode is ignored (rule R355). -/
theorem test_step_reserved : after (step (State.reset.withFetchWord 32 0x0C000000)) id = some State.reset := by rfl

/-! ## Witnesses: every obligation's hypotheses are met together by a concrete state and operands -/

/-- A state with a presented command. -/
def presented (w : U32) : State := { playing with queue := [{ word := w, ports := .idle }] }

theorem witness_DecodeOfEncode : (Instr.rvbWrite 34 0xFFFF).WellFormed ∧ (Instr.mixRender 0xFFFFFF).WellFormed := by decide

theorem witness_NibbleValues : 0 < 28 ∧ 27 < 28 := by decide

theorem witness_EveryOperationCompletes : Instr.envTick.WellFormed ∧ (Instr.mixBlend true).WellFormed := by decide

theorem witness_StepRunsDecodedOperation :
    (presented 0x51003C00).queue = { word := 0x51003C00, ports := .idle } :: [] ∧
      decode 0x51003C00 = .ok (.mixNoteOff 0 60) := ⟨rfl, rfl⟩

theorem witness_StepIdleOrIgnored : State.reset.queue = [] ∧
    (presented 0x57000000).queue = { word := 0x57000000, ports := .idle } :: [] ∧
      decode 0x57000000 = .error (.reservedOpcode 0x57) := ⟨rfl, rfl, rfl⟩

theorem witness_DataFormatsRefused : ¬ (Instr.fmtAdpcmFlags false false false).WellFormed ∧
    ¬ (Instr.fmtRate 0 0).WellFormed := by
  decide

theorem env_wf_keyed : (keyed 0x0000000F).wf := by decide +kernel

theorem vib_wf_W1 : vibW1.wf := by decide +kernel

theorem sampleX_wf : sampleX.wf := by decide +kernel

/-- A sounding state with a presented command satisfies the invariant. -/
theorem presented_inv : (presented 0x55000010).Inv where
  cache := ⟨by decide +kernel, fun e he => by
    have : e = (0, sampleX) := by simpa [presented, playing] using he
    exact this ▸ sampleX_wf⟩
  envd := by decide +kernel
  rvb := by decide +kernel
  vibd := by decide +kernel
  slots := rfl
  ch := by decide +kernel
  voices v hv := by
    have : v = voiceX := by simpa [presented, playing] using hv
    subst this
    exact ⟨env_wf_keyed, vib_wf_W1, by decide, fun o ho => by cases ho; rfl⟩
  out := by decide +kernel

theorem witness_StepKeepsInv : (presented 0x55000010).Inv ∧ ∃ t, step (presented 0x55000010) = .next t :=
  ⟨presented_inv, _, rfl⟩

/-- A7's buffer: four whole blocks, end on block 2, loop starts on blocks 0 and 1. -/
theorem witness_AdpcmDecodeBlocks : Spec.wholeBlocks bufA7 = 4 ∧
    [0, 1, 2].map (fun b => (Spec.blockFlags bufA7 b).getLsbD 0) = [false, false, true] ∧
    [0, 1, 2].map (fun b => (Spec.blockFlags bufA7 b).getLsbD 2) = [true, true, false] := by decide +kernel

theorem witness_AdpcmSampleRecurrence :
    exec .adpcmDecode (atPorts { Ports.idle with buf := blockA10 }) =
      .next { atPorts { Ports.idle with buf := blockA10 } with
        result := .decoded (adpcmDecode Config.machine blockA10) } ∧
    27 < (adpcmDecode Config.machine blockA10).pcm.length := ⟨rfl, by decide +kernel⟩

theorem witness_AdpcmFetchResult : SMap.wf hostA1.cache ∧ SMap.wf playing.cache ∧
    (SMap.find hostA1.cache 0).isNone = true ∧ (SMap.find playing.cache 0).isSome = true := by decide +kernel

theorem witness_CacheEntriesPersist : SMap.wf playing.cache ∧ (∃ t, exec (.mixNoteOn 0 60 127) playing = .next t) ∧
    SMap.find playing.cache 0 = some sampleX := ⟨by decide +kernel, ⟨_, rfl⟩, rfl⟩

theorem witness_EnvKeyoffResult : (withEnv Env.fresh).envd.phase = .off ∧ (withEnv (keyed 0)).envd.phase = .attack :=
  ⟨rfl, rfl⟩

theorem witness_PhaseParameters : EnvPhase.attack ≠ .off ∧ EnvPhase.release ≠ .off := by decide

/-- The held level, a tick that only counts (E5, tick 32767) and one that steps (E5, tick 32768). -/
theorem witness_EnvTickResult : (withEnv Env.fresh).envd.phase = .off ∧
    (withEnv { keyed 0x7E0F with counter := 32766 }).envd.phase ≠ .off ∧
    32766 + (keyed 0x7E0F).inc.toNat < 32768 ∧ 32768 ≤ 32767 + (keyed 0x7E0F).inc.toNat := by decide +kernel

theorem witness_EnvPhaseSequence :
    { keyed 0 with phase := .sustain : Env }.phase = .sustain ∧ (keyed 0).reached = false ∧
    { keyed 0 with level := 32767 : Env }.reached = true ∧
    (Env.setPhase Config.machine { keyed 0 with level := 2048 } .decay).reached = true ∧
    (Env.setPhase Config.machine (keyed 0) .release).reached = true := by decide +kernel

/-- A unit in Release at full level, at the slowest rate that moves (rate 120: increment 1). -/
def releasing : Env := Env.setPhase Config.machine { Env.fresh with reg := 0x001E0000, level := 32767 } .release

theorem witness_EnvLevelMonotone : (keyed 0).wf ∧ (keyed 0).phase = .attack ∧ releasing.wf ∧
    releasing.phase = .release := by decide +kernel

theorem witness_ReleaseReachesOff : releasing.wf ∧ releasing.phase = .release ∧ releasing.inc ≠ 0 := by decide +kernel

theorem witness_RvbWriteResult : 34 < (35 : BitVec 8).toNat ∧ (34 : BitVec 8).toNat < numRvbRegs := by decide

/-- The delay memory from its first to its last cell. -/
theorem witness_RvbStepRefinesArray : Memory.wf ([(0, 1), (262143, -32768)] : SMap S16) := by decide +kernel

theorem witness_RvbStepFrame : Memory.wf ([(3, -1), (262143, 7)] : SMap S16) ∧ Memory.wf State.reset.rvb.mem := by
  decide +kernel

/-- The shortest working region: `mBASE = 0xFFFF`, four cells. -/
def shortRegion : Reverb :=
  { reg := (Vector.replicate 35 0).set 34 0xFFFF, mem := [], cursor := 262143 }

theorem witness_ReverbCursorReturns : shortRegion.base Config.machine ≤ shortRegion.cursor ∧ shortRegion.cursor < 262144 ∧
    [((1 : S16), (2 : S16)), (3, 4), (5, 6), (7, 8)].length = 262144 - shortRegion.base Config.machine := by decide +kernel

theorem witness_DepthTableSmoothed : ([0, 255, 255, 0, 0, 0] : List Byte) ≠ [] ∧
    4 + 1 < ([0, 255, 255, 0, 0, 0] : List Byte).length := by decide

theorem witness_VibTickResult : 1 ≤ vibW1.shape.length ∧ vibW1.hasDepth = false ∧
    { vibW1 with hasDepth := true, depthTab := [.one] : Vib }.hasDepth = true ∧
    (vibW1.phase.add (.inf true)).isFinite = false := by decide +kernel

/-- W1's table at its last entry, a position of all three clauses. -/
theorem witness_InterpAtEntry : 3 < ([127, 255, 127, 0] : List Byte).length ∧ 3 < 2 ^ 53 ∧
    (Flt.fin false 1024 (2 ^ 51)).isFinite = true ∧ Spec.value (.fin false 1024 (2 ^ 51)) = 3 ∧
    ((([127, 255, 127, 0] : List Byte).length : ℚ) - 1 ≤ 3 ∧ (3 : ℚ) < ([127, 255, 127, 0] : List Byte).length) := by
  refine ⟨by decide, by decide, rfl, ?_, by norm_num⟩
  simp [Spec.value]
  norm_num

theorem witness_InvalidChannelIgnored : 15 < (16 : BitVec 8).toNat ∧ 15 < (255 : BitVec 8).toNat := by decide

/-- Beyond the bank (program 3 of 3), an SFX Program, and a key below the range. -/
theorem witness_NoteOnSilentCases : (0 : BitVec 8).toNat = 0 ∧ 0 < 16 ∧
    hostX.bank.length ≤ ({ chDefaults with program := 3 } : ChannelState).program.toNat ∧
    hostX.bank[1]? = some (program6 .sfx [toneX0]) ∧ (program6 .sfx [toneX0]).mode = .sfx ∧
    (∀ t ∈ (program6 .split [{ toneX0 with keyMin := 61 }]).tones,
      (60 : U7).toNat < t.keyMin.toNat ∨ t.keyMax.toNat < (60 : U7).toNat) := by decide +kernel

theorem witness_MatchedTones : (program6 .split []).mode = .split ∧ (program6 .layered []).mode = .layered ∧
    (program6 .sfx []).mode = .sfx := ⟨rfl, rfl, rfl⟩

theorem witness_NoteOnBuildsVoices : (0 : BitVec 8).toNat = 0 ∧ 0 < 16 ∧ SMap.wf hostX.cache ∧
    hostX.bank[(channelAt hostX.ch 0).program.toNat]? = some (program6 .split [toneX0]) ∧
    matchTones (program6 .split [toneX0]) 60 ≠ [] := by decide +kernel

theorem witness_NewVoiceInitialState : toneX0.useModulation = false ∧
    { toneX0 with useModulation := true : Tone }.useModulation = true ∧ (60 : U7) = toneX0.root ∧ toneX0.fine = 0 := by
  decide

theorem witness_NoteOffResult : 15 < (16 : BitVec 8).toNat ∧ (15 : BitVec 8).toNat = 15 ∧ 15 < 16 := by decide

theorem witness_ProgramResult : (15 : BitVec 8).toNat = 15 ∧ 15 < 16 := by decide

theorem witness_BendResult : (0 : BitVec 8).toNat = 0 ∧ 0 < 16 ∧
    (Spec.pitchMult hostX 0).isFinite = true ∧
    State.reset.bank.length ≤ (channelAt State.reset.ch 0).program.toNat := by decide +kernel

theorem witness_ControllerWrites : (0 : BitVec 8).toNat = 0 ∧ 0 < 16 ∧
    (3 : U7).toNat ∉ [1, 5, 7, 10, 11, 64, 65, 91, 121] := by decide

theorem witness_SustainPedal : (0 : BitVec 8).toNat = 0 ∧ 0 < 16 ∧ 64 ≤ (64 : U7).toNat ∧
    (63 : U7).toNat < 64 := by decide

theorem witness_ControllerReset : (15 : BitVec 8).toNat = 15 ∧ 15 < 16 := by decide

theorem witness_RenderSplits : (1 : BitVec 24).toNat + (2 : BitVec 24).toNat < 2 ^ 24 ∧
    ∃ t u w, exec (.mixRender 1) playing = .next t ∧ exec (.mixRender 2) t = .next u ∧
      exec (.mixRender (1 + 2)) playing = .next w := ⟨by decide, _, _, _, rfl, rfl, rfl⟩

theorem witness_PitchedVoiceSample : playing.voices = [] ++ [voiceX] ∧ voiceX.active = true ∧ voiceX.sample = some 0 ∧
    SMap.find playing.cache 0 = some sampleX ∧ (Env.tick Config.machine voiceX.env).phase ≠ .off ∧ sampleX.pcm ≠ [] ∧
    (sampleX.looping = true ∨ voiceX.pos.floor.floorInt < sampleX.pcm.length) :=
  ⟨rfl, rfl, rfl, rfl, by decide +kernel, by decide, .inl rfl⟩

theorem witness_NoiseVoiceSample :
    { playing with voices := [voiceX, { voiceX with sample := none }] : State }.voices =
      [voiceX] ++ [{ voiceX with sample := none }] ∧
    { voiceX with sample := none : Voice }.active = true ∧ { voiceX with sample := none : Voice }.sample = none ∧
    (Env.tick Config.machine { voiceX with sample := none : Voice }.env).phase ≠ .off := ⟨rfl, rfl, rfl, by decide +kernel⟩

/-- A voice in Release at level 0: its envelope reaches Off on the next tick. -/
def fading : Voice := { voiceX with env := Env.setPhase Config.machine (keyed 0) .release }

/-- A voice behind the last sample of the entry at offset 5, which does not loop. -/
def overrun : Voice := { voiceX with sample := some 5, pos := .ofNat 28 }

/-- A voice that retires on the next sample, between two that sound on. -/
def retiring (v : Voice) : State :=
  { playing with cache := [(0, sampleX), (5, { sampleX with looping := false })], voices := [voiceX, v, voiceX] }

/-- One voice retires by its envelope. -/
theorem witness_RetiredVoiceAddsNothing : (retiring fading).voices = [voiceX] ++ fading :: [voiceX] ∧
    fading.active = true ∧ (Env.tick Config.machine fading.env).phase = .off := ⟨rfl, rfl, by decide +kernel⟩

/-- One voice retires by running past the end of its sample. -/
theorem witness_RetiredVoiceAddsNothing_overrun : (retiring overrun).voices = [voiceX] ++ overrun :: [voiceX] ∧
    overrun.active = true ∧ ∃ o d, overrun.sample = some o ∧ SMap.find (retiring overrun).cache o = some d ∧
      (d.pcm = [] ∨ (d.looping = false ∧ (d.pcm.length : Int) ≤ overrun.pos.floor.floorInt)) :=
  ⟨rfl, rfl, _, _, rfl, rfl, .inr ⟨rfl, by decide +kernel⟩⟩

theorem witness_IdleRenderIsSilent :
    ∀ v ∈ ({ playing with voices := [{ voiceX with active := false }] } : State).voices, v.active = false := by
  intro v hv
  simp at hv
  simp [hv]

/-- Buffers of no frame. -/
theorem witness_BlendBypassResult : State.reset.out.wf := by decide

/-- Buffers of one frame. -/
theorem witness_BlendWetIsStepfPerFrame :
    ({ OutBuffers.empty with dryL := [.one], dryR := [.one], wetL := [.half], wetR := [.half] } : OutBuffers).wf := by
  decide

theorem witness_AdapterSaturates : Flt.one.isFinite = true ∧ Flt.half.le Flt.one = true ∧ Flt.one.le Flt.one = true ∧
    Flt.one.negate.le Flt.one.negate = true ∧ (Flt.inf true).isFinite = false ∧ Flt.zero.isFinite = true := by
  decide +kernel

theorem witness_AdapterSaturates_small : -1 < Spec.value .zero * 32768 ∧ Spec.value .zero * 32768 < 1 := by
  have h : Spec.value .zero = 0 := by simp [Spec.value, Flt.zero]
  rw [h]
  norm_num

theorem witness_SumAndProductAreNearest : Flt.one.isFinite = true ∧ Flt.half.isFinite = true ∧
    Flt.one.negate.isFinite = true := by decide

/-- 1 + 2^-53 is a tie and goes to the even significand, 1 (IEEE 754). -/
theorem test_add_tie : Flt.one.add (.fin false 970 0) = .one ∧
    (Flt.fin false 1023 1).add (.fin false 970 0) = .fin false 1023 2 := by decide +kernel

theorem witness_UnitsAreIsolated : (Instr.mixNoteOn 0 60 127).WellFormed ∧
    ∃ t, exec (.mixNoteOn 0 60 127) playing = .next t := ⟨rfl, _, rfl⟩

theorem witness_HostInputsAreConstant : ∃ t, exec (.mixBlend true) playing = .next t := ⟨_, rfl⟩

end Sys2Proof.Tests
end

