-- ==== Sys2Proof/Proofs/Encoding.lean ====
section
/-! The encodings of 30_encoding.md that are read as numbers: the rate byte of each phase of the envelope (rule R96) and
the nibbles of a compressed block (rule R93). -/

open Sys2Proof Sys2Proof.Machine

namespace Sys2Proof.Encoding

/-! ## The rate byte (rule R96) -/

/-- The packed byte as a number: the two fields do not overlap, so the concatenation is a sum. -/
@[simp] theorem ratePack_toNat (shift : BitVec 5) (step : BitVec 2) :
    (ratePack shift step).toNat = shift.toNat * 4 + step.toNat := by
  have hstep : step.toNat < 2 ^ 2 := step.isLt
  calc (ratePack shift step).toNat = shift.toNat <<< 2 ||| step.toNat := BitVec.toNat_append shift step
    _ = shift.toNat <<< 2 + step.toNat := (Nat.shiftLeft_add_eq_or_of_lt hstep _).symm
    _ = shift.toNat * 4 + step.toNat := by rw [Nat.shiftLeft_eq]

theorem phaseRate_attack_toNat (r : U32) :
    (phaseRate r .attack).toNat = (adsrAttShift r).toNat * 4 + (adsrAttStep r).toNat :=
  ratePack_toNat _ _

theorem phaseRate_sustain_toNat (r : U32) :
    (phaseRate r .sustain).toNat = (adsrSusShift r).toNat * 4 + (adsrSusStep r).toNat :=
  ratePack_toNat _ _

/-- Decay's shift has four bits only; widening it to the five of the rate byte keeps its value. -/
theorem phaseRate_decay_toNat (r : U32) : (phaseRate r .decay).toNat = (adsrDecShift r).toNat * 4 := by
  have hwiden : ((adsrDecShift r).setWidth 5).toNat = (adsrDecShift r).toNat :=
    BitVec.toNat_setWidth_of_le (by decide)
  simp [phaseRate, hwiden]

theorem phaseRate_release_toNat (r : U32) : (phaseRate r .release).toNat = (adsrRelShift r).toNat * 4 := by
  simp [phaseRate]

/-- Settles O5: each phase's byte is a packed shift and step, and the bounds are those of a 4-bit and a 5-bit shift. -/
theorem rateBytes : Obligations.RateBytes := by
  intro r
  have hdecay : (adsrDecShift r).toNat < 2 ^ 4 := (adsrDecShift r).isLt
  have hrelease : (adsrRelShift r).toNat < 2 ^ 5 := (adsrRelShift r).isLt
  refine ⟨phaseRate_attack_toNat r, phaseRate_sustain_toNat r, phaseRate_decay_toNat r, ?_,
    phaseRate_release_toNat r, ?_⟩
  · rw [phaseRate_decay_toNat]; omega
  · rw [phaseRate_release_toNat]; omega

/-! ## The nibbles of a block (rule R93) -/

/-- A block's bytes are the buffer's bytes from the block's start on, also past the buffer's end, where both read 0. -/
@[simp] theorem srcByte_drop (buf : List Byte) (start i : Nat) :
    srcByte (buf.drop start) i = srcByte buf (start + i) := by
  simp [srcByte]

/-- The four bits of a byte that stand for nibble `j`: bits 3:0 for even `j`, bits 7:4 for odd `j`. -/
def nibbleBits (byte : Byte) (j : Nat) : BitVec 4 :=
  if j % 2 = 0 then byte.extractLsb' 0 4 else byte.extractLsb' 4 4

theorem adpcmNibble_eq (blk : List Byte) (j : Nat) :
    adpcmNibble blk j = (nibbleBits (srcByte blk (2 + j / 2)) j).toInt := rfl

/-- Picking the half of a byte is division by 16 to the parity of `j`. -/
theorem nibbleBits_toNat (byte : Byte) (j : Nat) :
    (nibbleBits byte j).toNat = byte.toNat / 16 ^ (j % 2) % 16 := by
  rcases Nat.mod_two_eq_zero_or_one j with heven | hodd
  · simp [nibbleBits, heven]
  · simp [nibbleBits, hodd, Nat.shiftRight_eq_div_pow]

/-- `sext_4` as the rule writes it: `raw - 16` from 8 on. -/
theorem toInt_four_bits (v : BitVec 4) :
    v.toInt = if v.toNat < 8 then (v.toNat : Int) else (v.toNat : Int) - 16 := by
  rw [BitVec.toInt_eq_toNat_cond]
  split <;> split <;> omega

/-- Settles O6. The bound `j < 28` is not needed: past a block's last byte both sides read on in the buffer alike. -/
theorem nibbleValues : Obligations.NibbleValues := by
  intro buf b j _
  have hraw : (nibbleBits (srcByte buf (16 * b + 2 + j / 2)) j).toNat =
      (buf.getD (16 * b + 2 + j / 2) 0).toNat / 16 ^ (j % 2) % 16 := nibbleBits_toNat _ j
  calc adpcmNibble (buf.drop (16 * b)) j
      = (nibbleBits (srcByte buf (16 * b + 2 + j / 2)) j).toInt := by
        rw [adpcmNibble_eq, srcByte_drop, ← Nat.add_assoc]
    _ = Spec.nibble buf b j := by rw [toInt_four_bits, hraw]; rfl

end Sys2Proof.Encoding
end

