-- ==== Sys2Proof/Proofs/Envelope.lean ====
section
/-! The envelope's key-on (rule R163) and its phase sequence (rule R166). -/

open Sys2Proof Sys2Proof.Machine

namespace Sys2Proof.Envelope

/-! ## The phase sequence (rule R166) -/

/-- Only Attack, Decay and Release have a phase after them. -/
theorem advance_of_held (cfg : Config) {e : Env} (hheld : e.phase = .sustain ∨ e.phase = .off) :
    Env.advance cfg e = e := by
  rcases Env.advance_cases cfg e with hkept | ⟨_, ⟨hattack, _⟩ | ⟨hdecay, _⟩ | ⟨hrelease, _⟩⟩
  · exact hkept
  · simp [hattack] at hheld
  · simp [hdecay] at hheld
  · simp [hrelease] at hheld

theorem advance_of_not_reached (cfg : Config) {e : Env} (hreached : e.reached = false) :
    Env.advance cfg e = e := by
  rcases Env.advance_cases cfg e with hkept | ⟨hdone, _⟩
  · exact hkept
  · simp [hreached] at hdone

theorem advance_attack (cfg : Config) {e : Env} (hreached : e.reached = true) (hphase : e.phase = .attack) :
    Env.advance cfg e = Env.setPhase cfg e .decay := by
  simp [Env.advance, hphase, hreached]

theorem advance_decay (cfg : Config) {e : Env} (hreached : e.reached = true) (hphase : e.phase = .decay) :
    Env.advance cfg e = Env.setPhase cfg e .sustain := by
  simp [Env.advance, hphase, hreached]

theorem advance_release (cfg : Config) {e : Env} (hreached : e.reached = true) (hphase : e.phase = .release) :
    Env.advance cfg e = Env.setPhase cfg e .off := by
  simp [Env.advance, hphase, hreached]

/-- The comparison follows the counter and the step on every tick: it does not ask whether a step was applied. -/
theorem tick_of_ne_off (cfg : Config) {e : Env} (hphase : e.phase ≠ .off) :
    Env.tick cfg e = Env.advance cfg (Env.applyStep cfg e) :=
  if_neg hphase

/-- Settles O23: one case of `Advance` per clause. The comparison that the statement writes out is `Env.reached`. -/
theorem envPhaseSequence : Obligations.EnvPhaseSequence := by
  intro e reached
  have hreached : reached = e.reached := rfl
  rw [hreached]
  exact ⟨advance_of_held _, advance_of_not_reached _, advance_attack _, advance_decay _, advance_release _,
    Env.advance_level _ e, tick_of_ne_off _⟩

/-! ## Key on (rule R163) -/

theorem decode_envKeyon : decode 0x21000000 = .ok .envKeyon := rfl

theorem exec_envKeyon (s : State) :
    exec .envKeyon s = .next { s with envd := Env.keyOn Config.machine s.envd } := rfl

/-- Settles O19: no case split on the old phase is needed, since key-on enters Attack without reading it. -/
theorem envKeyonResult : Obligations.EnvKeyonResult :=
  ⟨decode_envKeyon, fun s => ⟨exec_envKeyon s, Env.setPhase_level _ _ _, Env.setPhase_phase _ _ _,
    Env.setPhase_counter _ _ _⟩⟩

end Sys2Proof.Envelope
end

