-- ==== Sys2Proof/Proofs/Mixer.lean ====
section
/-! The mixer's note off (rule R275): its command word, the channel operand it shares with the other channel operations
(rule R352), and what it does to one voice. -/

open Sys2Proof Sys2Proof.Machine

namespace Sys2Proof.Mixer

/-! ## Operand bytes of a command word (rule R98) -/

@[simp] theorem aOf_command (op a b c : BitVec 8) : aOf (command op (a ++ b ++ c)) = a := by
  unfold aOf command
  ext j hj
  rw [BitVec.getElem_extractLsb', BitVec.getLsbD_append, if_pos (by omega), BitVec.getLsbD_append, if_neg (by omega),
    BitVec.getLsbD_append, if_neg (by omega), BitVec.getLsbD_eq_getElem (by omega)]
  congr 1
  omega

@[simp] theorem b7Of_command (op a c : BitVec 8) (v : U7) : b7Of (command op (a ++ byte7 v ++ c)) = v := by
  unfold b7Of command byte7
  ext j hj
  rw [BitVec.getElem_extractLsb', BitVec.getLsbD_append, if_pos (by omega), BitVec.getLsbD_append, if_neg (by omega),
    BitVec.getLsbD_append, if_pos (by omega), BitVec.getLsbD_append, if_pos (by omega),
    BitVec.getLsbD_eq_getElem (by omega)]
  congr 1
  omega

theorem command_toNat (op a b c : BitVec 8) :
    (command op (a ++ b ++ c)).toNat = op.toNat <<< 24 ||| a.toNat <<< 16 ||| b.toNat <<< 8 ||| c.toNat := by
  have hword : (command op (a ++ b ++ c)).toNat = op.toNat <<< 24 ||| (a ++ b ++ c).toNat := BitVec.toNat_append _ _
  rw [hword, BitVec.toNat_append, BitVec.toNat_append, Nat.shiftLeft_or_distrib, ← Nat.shiftLeft_add]
  simp only [Nat.or_assoc]

theorem byte7_toNat (v : U7) : (byte7 v).toNat = v.toNat := by
  have hbyte : (byte7 v).toNat = (0#1).toNat <<< 7 ||| v.toNat := BitVec.toNat_append _ _
  simpa using hbyte

/-- A field shifted to its place in a word loses no bit where it fits. -/
theorem setWidth_shiftLeft_toNat {m n : Nat} (v : BitVec m) (hfits : m + n ≤ 32) :
    (v.setWidth 32 <<< n).toNat = v.toNat <<< n := by
  have hlt : v.toNat <<< n < 2 ^ 32 := calc
    v.toNat <<< n = v.toNat * 2 ^ n := Nat.shiftLeft_eq _ _
    _ < 2 ^ m * 2 ^ n := Nat.mul_lt_mul_of_pos_right v.isLt (Nat.two_pow_pos n)
    _ = 2 ^ (m + n) := (Nat.pow_add 2 m n).symm
    _ ≤ 2 ^ 32 := Nat.pow_le_pow_right (by decide) hfits
  rw [BitVec.toNat_shiftLeft, BitVec.toNat_setWidth_of_le (by omega), Nat.mod_eq_of_lt hlt]

/-- The word that the rule writes with `|` is the encoding: both place the fields by the same shifts. -/
theorem noteOffWord_eq_encode (a : BitVec 8) (key : U7) :
    0x51000000 ||| (a.setWidth 32 <<< 16) ||| (key.setWidth 32 <<< 8) = encode (.mixNoteOff a key) := by
  apply BitVec.eq_of_toNat_eq
  calc (0x51000000 ||| (a.setWidth 32 <<< 16) ||| (key.setWidth 32 <<< 8) : U32).toNat
      = 0x51 <<< 24 ||| a.toNat <<< 16 ||| key.toNat <<< 8 := by
        rw [BitVec.toNat_or, BitVec.toNat_or, setWidth_shiftLeft_toNat a (by decide),
          setWidth_shiftLeft_toNat key (by decide)]
        rfl
    _ = (command 0x51 (a ++ byte7 key ++ 0#8)).toNat := by
        rw [command_toNat, byte7_toNat, BitVec.toNat_zero, Nat.or_zero]
        rfl

theorem decode_encode_mixNoteOff (a : BitVec 8) (key : U7) :
    decode (encode (.mixNoteOff a key)) = .ok (.mixNoteOff a key) := by
  have hop : opOf (encode (.mixNoteOff a key)) = 0x51 := Laws.Opcode.opOf_command _ _
  have ha : aOf (encode (.mixNoteOff a key)) = a := aOf_command _ _ _ _
  have hkey : b7Of (encode (.mixNoteOff a key)) = key := b7Of_command _ _ _ _
  simp [decode, hop, ha, hkey]

/-! ## The channel operand (rules R100 and R352) -/

theorem channelOf_of_lt {a : BitVec 8} {k : Nat} (ha : a.toNat = k) (hk : k < 16) :
    channelOf Config.machine a = some k :=
  (channelOf_some _ _ _).mpr ⟨ha, hk⟩

theorem channelOf_of_gt {a : BitVec 8} (ha : 15 < a.toNat) : channelOf Config.machine a = none :=
  (channelOf_none _ _).mpr ha

/-! ## Note off -/

theorem exec_mixNoteOff (a : BitVec 8) (key : U7) (s : State) :
    exec (.mixNoteOff a key) s = execMixNoteOff a key s := rfl

theorem exec_mixNoteOff_of_invalid {a : BitVec 8} (key : U7) (s : State) (ha : 15 < a.toNat) :
    exec (.mixNoteOff a key) s = .next s := by
  simp [exec_mixNoteOff, execMixNoteOff, channelOf_of_gt ha, ignored]

theorem exec_mixNoteOff_of_valid {a : BitVec 8} {k : Nat} (key : U7) (s : State) (ha : a.toNat = k) (hk : k < 16) :
    exec (.mixNoteOff a key) s = .next (noteOff Config.machine s k key) := by
  simp [exec_mixNoteOff, execMixNoteOff, channelOf_of_lt ha hk]

/-- The voices addressed: active, of the channel and of the key. -/
theorem sounds_iff (v : Voice) (k : Nat) (key : U7) :
    v.sounds k key = true ↔ v.active = true ∧ v.channel = k ∧ v.key = key := by
  simp [Voice.sounds, and_assoc]

/-- Settles O41: `channelOf` says whether the operand is ignored; on a valid channel `noteOff` maps the voices, and the
statement's condition on a voice is `Voice.sounds`. -/
theorem noteOffResult : Obligations.NoteOffResult := by
  intro a key s
  refine ⟨?word, ?invalid, ?valid⟩
  case word => rw [noteOffWord_eq_encode, decode_encode_mixNoteOff]
  case invalid => exact exec_mixNoteOff_of_invalid key s
  case valid =>
    intro k ha hk
    rw [exec_mixNoteOff_of_valid key s ha hk]
    simp only [noteOff, sounds_iff, Voice.noteOff]

end Sys2Proof.Mixer
end

section
/-! The encodings of 30_encoding.md: command words, the four data formats and the reserved opcodes (rules R91 to R102).
Every field is read as a number by its bit position, so that reading back what was written is arithmetic. -/

open Sys2Proof Sys2Proof.Machine Sys2Proof.Spec Sys2Proof.Laws.Opcode

namespace Sys2Proof.Encoding

/-! ## Fields by position -/

/-- Concatenation as a number: the low part fits below the high one. -/
theorem append_toNat {m n : Nat} (a : BitVec m) (b : BitVec n) : (a ++ b).toNat = a.toNat * 2 ^ n + b.toNat := by
  rw [BitVec.toNat_append, ← Nat.shiftLeft_add_eq_or_of_lt b.isLt, Nat.shiftLeft_eq]

theorem extract_toNat {m : Nat} (x : BitVec m) (start len : Nat) :
    (x.extractLsb' start len).toNat = x.toNat / 2 ^ start % 2 ^ len := by
  rw [BitVec.extractLsb'_toNat, Nat.shiftRight_eq_div_pow]

theorem getLsbD_eq {m : Nat} (x : BitVec m) (i : Nat) : x.getLsbD i = decide (x.toNat / 2 ^ i % 2 = 1) := by
  rw [← BitVec.testBit_toNat, Nat.testBit_eq_decide_div_mod_eq]

theorem bit_toNat (b : Bool) : (bit b).toNat = if b then 1 else 0 := by cases b <;> rfl

theorem command_value (op : BitVec 8) (x : BitVec 24) : (command op x).toNat = op.toNat * 2 ^ 24 + x.toNat :=
  append_toNat op x

theorem bytes_value (a b c : BitVec 8) : (a ++ b ++ c).toNat = a.toNat * 2 ^ 16 + b.toNat * 2 ^ 8 + c.toNat := by
  rw [append_toNat, append_toNat]; omega

/-! ## The operand fields of a command word (rule R98) -/

theorem nOf_command (op : BitVec 8) (n : BitVec 24) : nOf (command op n) = n := by
  apply BitVec.eq_of_toNat_eq
  rw [nOf, extract_toNat, command_value]
  omega

theorem aOf_command_byte (op a : BitVec 8) (x : U16) : aOf (command op (a ++ x)) = a := by
  apply BitVec.eq_of_toNat_eq
  have hval : (a ++ x).toNat = a.toNat * 2 ^ 16 + x.toNat := append_toNat a x
  rw [aOf, extract_toNat, command_value, hval]
  omega

theorem bcOf_command (op a : BitVec 8) (x : U16) : bcOf (command op (a ++ x)) = x := by
  apply BitVec.eq_of_toNat_eq
  have hval : (a ++ x).toNat = a.toNat * 2 ^ 16 + x.toNat := append_toNat a x
  rw [bcOf, extract_toNat, command_value, hval]
  omega

theorem c7Of_command_bytes (op a b : BitVec 8) (v : U7) : c7Of (command op (a ++ b ++ byte7 v)) = v := by
  apply BitVec.eq_of_toNat_eq
  rw [c7Of, extract_toNat, command_value, bytes_value, Mixer.byte7_toNat]
  omega

/-- The operand field of `VIB.CONFIG`: its two flags are bits 0 and 1 of `a`. -/
def vibFlags (hasShape hasDepth : Bool) : BitVec 24 := 0#6 ++ bit hasDepth ++ bit hasShape ++ 0#16

theorem vibFlags_toNat (s d : Bool) :
    (vibFlags s d).toNat = (if d then 2 ^ 17 else 0) + (if s then 2 ^ 16 else 0) := by
  cases s <;> cases d <;> rfl

/-- The operand field of `MIX.BLEND`: its flag is bit 0 of `a`. -/
def blendFlag (rev : Bool) : BitVec 24 := 0#7 ++ bit rev ++ 0#16

theorem blendFlag_toNat (rev : Bool) : (blendFlag rev).toNat = if rev then 2 ^ 16 else 0 := by cases rev <;> rfl

theorem shapeFlag_command (op : BitVec 8) (s d : Bool) : (command op (vibFlags s d))[16] = s := by
  rw [← BitVec.getLsbD_eq_getElem, getLsbD_eq, command_value, vibFlags_toNat]
  cases s <;> cases d <;> simp <;> omega

theorem depthFlag_command (op : BitVec 8) (s d : Bool) : (command op (vibFlags s d))[17] = d := by
  rw [← BitVec.getLsbD_eq_getElem, getLsbD_eq, command_value, vibFlags_toNat]
  cases s <;> cases d <;> simp <;> omega

theorem getElem_command_blendFlag (op : BitVec 8) (rev : Bool) : (command op (blendFlag rev))[16] = rev := by
  rw [← BitVec.getLsbD_eq_getElem, getLsbD_eq, command_value, blendFlag_toNat]
  cases rev <;> simp <;> omega

/-! ## Decode after encode -/

theorem encode_vibConfig (s d : Bool) : encode (.vibConfig s d) = command 0x40 (vibFlags s d) := rfl

theorem encode_mixBlend (rev : Bool) : encode (.mixBlend rev) = command 0x56 (blendFlag rev) := rfl

/-- Settles O1, by cases on the operation: the opcode selects its row and each operand field reads back. -/
theorem decodeOfEncode : Obligations.DecodeOfEncode := by
  intro i hwf
  cases i with
  | adpcmDecode | adpcmFetch | envLoad | envKeyon | envKeyoff | envTick | rvbReset | rvbStep | rvbStepf | vibTick => rfl
  | rvbWrite index value =>
    simp [encode, decode, opOf_command, aOf_command_byte, bcOf_command]
  | vibConfig s d => simp [encode_vibConfig, decode, opOf_command, shapeFlag_command, depthFlag_command]
  | mixNoteOn channel key velocity =>
    simp [encode, decode, opOf_command, c7Of_command_bytes]
  | mixNoteOff channel key => simp [encode, decode, opOf_command]
  | mixProgram channel program => simp [encode, decode, opOf_command]
  | mixBend channel bend => simp [encode, decode, opOf_command]
  | mixCc channel number value =>
    simp [encode, decode, opOf_command, c7Of_command_bytes]
  | mixRender n => simp [encode, decode, opOf_command, nOf_command]
  | mixBlend rev => simp [encode_mixBlend, decode, opOf_command, getElem_command_blendFlag]
  | fmtAdpcmHdr | fmtAdpcmFlags | fmtAdsr | fmtRate => simp [Instr.WellFormed, Instr.isOperation] at hwf

/-! ## The data formats (rules R91, R92, R94 and R96) -/

theorem decodeAdpcmHdr_encode (f s : BitVec 4) :
    decodeAdpcmHdr ((encode (.fmtAdpcmHdr f s)).setWidth 8) = .fmtAdpcmHdr f s := by
  have hval : ((encode (.fmtAdpcmHdr f s)).setWidth 8).toNat = f.toNat * 2 ^ 4 + s.toNat := by
    have : (encode (.fmtAdpcmHdr f s)).toNat = f.toNat * 2 ^ 4 + s.toNat := by
      have hhigh : (0#24 ++ f).toNat = f.toNat := by rw [append_toNat, BitVec.toNat_zero, Nat.zero_mul, Nat.zero_add]
      exact (append_toNat (0#24 ++ f) s).trans (by rw [hhigh])
    rw [BitVec.toNat_setWidth, this]
    omega
  have hf : hdrFilterCode ((encode (.fmtAdpcmHdr f s)).setWidth 8) = f :=
    BitVec.eq_of_toNat_eq (by rw [hdrFilterCode, extract_toNat, hval]; omega)
  have hs : hdrShiftCode ((encode (.fmtAdpcmHdr f s)).setWidth 8) = s :=
    BitVec.eq_of_toNat_eq (by rw [hdrShiftCode, extract_toNat, hval]; omega)
  rw [decodeAdpcmHdr, hf, hs]

theorem decodeRate_encode (sh : BitVec 5) (st : BitVec 2) :
    decodeRate ((encode (.fmtRate sh st)).setWidth 7) = .fmtRate sh st := by
  have hval : ((encode (.fmtRate sh st)).setWidth 7).toNat = sh.toNat * 4 + st.toNat := by
    have : (encode (.fmtRate sh st)).toNat = (ratePack sh st).toNat := by
      have hsum : (0#25 ++ ratePack sh st).toNat = _ := append_toNat 0#25 (ratePack sh st)
      rw [BitVec.toNat_zero, Nat.zero_mul, Nat.zero_add] at hsum
      exact hsum
    rw [BitVec.toNat_setWidth, this, ratePack_toNat]
    omega
  have hsh : ((encode (.fmtRate sh st)).setWidth 7).extractLsb' 2 5 = sh :=
    BitVec.eq_of_toNat_eq (by rw [extract_toNat, hval]; omega)
  have hst : ((encode (.fmtRate sh st)).setWidth 7).extractLsb' 0 2 = st :=
    BitVec.eq_of_toNat_eq (by rw [extract_toNat, hval]; omega)
  rw [decodeRate, hsh, hst]

theorem decodeAdsr_encode (se sd : Bool) (ss : BitVec 5) (st : BitVec 2) (re : Bool) (rs : BitVec 5) (ae : Bool)
    (as' : BitVec 5) (at' : BitVec 2) (ds sl : BitVec 4) :
    decodeAdsr (encode (.fmtAdsr se sd ss st re rs ae as' at' ds sl)) = .fmtAdsr se sd ss st re rs ae as' at' ds sl := by
  have hval : (encode (.fmtAdsr se sd ss st re rs ae as' at' ds sl)).toNat =
      (bit se).toNat * 2 ^ 31 + (bit sd).toNat * 2 ^ 30 + ss.toNat * 2 ^ 24 + st.toNat * 2 ^ 22 + (bit re).toNat * 2 ^ 21 +
        rs.toNat * 2 ^ 16 + (bit ae).toNat * 2 ^ 15 + as'.toNat * 2 ^ 10 + at'.toNat * 2 ^ 8 + ds.toNat * 2 ^ 4 +
        sl.toNat := by
    show (bit se ++ bit sd ++ 0#1 ++ ss ++ st ++ bit re ++ rs ++ bit ae ++ as' ++ at' ++ ds ++ sl).toNat = _
    simp only [append_toNat, BitVec.toNat_zero]
    omega
  generalize encode (.fmtAdsr se sd ss st re rs ae as' at' ds sl) = w at hval
  have flag (b : Bool) (i : Nat) (hb : w.toNat / 2 ^ i % 2 = (bit b).toNat) : w.getLsbD i = b := by
    rw [getLsbD_eq, hb, bit_toNat]; cases b <;> rfl
  have field {len start : Nat} (x : BitVec len) (hx : w.toNat / 2 ^ start % 2 ^ len = x.toNat) :
      w.extractLsb' start len = x := BitVec.eq_of_toNat_eq (by rw [extract_toNat, hx])
  have hse := (bit se).isLt
  have hsd := (bit sd).isLt
  have hre := (bit re).isLt
  have hae := (bit ae).isLt
  simp only [decodeAdsr, Instr.fmtAdsr.injEq]
  refine ⟨flag se 31 ?_, flag sd 30 ?_, field ss ?_, field st ?_, flag re 21 ?_, field rs ?_, flag ae 15 ?_, field as' ?_,
    field at' ?_, field ds ?_, field sl ?_⟩
  all_goals omega

/-- A field of a word is not changed by a mask that has all of the field's bits. -/
theorem extract_and_of_mask {m : Nat} (x mask : BitVec m) (start len : Nat)
    (hmask : mask.extractLsb' start len = BitVec.allOnes len) :
    (x &&& mask).extractLsb' start len = x.extractLsb' start len := by
  rw [BitVec.extractLsb'_and, hmask, BitVec.and_allOnes]

theorem decodeAdsr_and (r : U32) : decodeAdsr r = decodeAdsr (r &&& 0xDFFFFFFF) := by
  have field (start len : Nat) (hmask : (0xDFFFFFFF : U32).extractLsb' start len = BitVec.allOnes len) :
      r.extractLsb' start len = (r &&& 0xDFFFFFFF).extractLsb' start len := (extract_and_of_mask _ _ _ _ hmask).symm
  have flag (i : Nat) (hmask : (0xDFFFFFFF : U32).getLsbD i = true) :
      r.getLsbD i = (r &&& 0xDFFFFFFF).getLsbD i := by rw [BitVec.getLsbD_and, hmask, Bool.and_true]
  unfold decodeAdsr
  congr 1
  exacts [flag 31 rfl, flag 30 rfl, field 24 5 rfl, field 22 2 rfl, flag 21 rfl, field 16 5 rfl, flag 15 rfl,
    field 10 5 rfl, field 8 2 rfl, field 4 4 rfl, field 0 4 rfl]

/-- Settles O2. The flag byte is one of 256, which are looked at one by one. -/
theorem formatFieldsReadBack : Obligations.FormatFieldsReadBack := by
  refine ⟨decodeAdpcmHdr_encode, ?flags, decodeAdsr_encode, decodeRate_encode, ?flagsIgnored, decodeAdsr_and⟩
  case flags => decide
  case flagsIgnored => decide

/-! ## Words with an unlisted opcode, and bits no operand uses (rules R99 to R101) -/

theorem word_eq_command (w : U32) : w = command (opOf w) (nOf w) := by
  apply BitVec.eq_of_toNat_eq
  rw [command_value, opOf, nOf, extract_toNat, extract_toNat]
  omega

theorem nOf_eq_bytes (w : U32) : nOf w = aOf w ++ w.extractLsb' 8 8 ++ w.extractLsb' 0 8 := by
  apply BitVec.eq_of_toNat_eq
  rw [bytes_value, nOf, aOf, extract_toNat, extract_toNat, extract_toNat, extract_toNat]
  omega

/-- A mask that keeps the opcode acts on the operand field alone. -/
theorem and_command (w : U32) (mask : BitVec 24) : w &&& command 0xFF mask = command (opOf w) (nOf w &&& mask) := by
  have hop : opOf w &&& 0xFF = opOf w := BitVec.and_allOnes
  conv_lhs => rw [word_eq_command w]
  rw [command, command, BitVec.and_append, hop, command]

theorem and_command_bytes (w : U32) (a b c : BitVec 8) : w &&& command 0xFF (a ++ b ++ c) =
    command (opOf w) ((aOf w &&& a) ++ (w.extractLsb' 8 8 &&& b) ++ (w.extractLsb' 0 8 &&& c)) := by
  rw [and_command, nOf_eq_bytes, BitVec.and_append, BitVec.and_append]

/-- Bit 7 of a byte that holds a 7-bit operand is the one bit the mask clears. -/
theorem and_low7 (w : U32) (start : Nat) :
    w.extractLsb' start 8 &&& 0x7F#8 = byte7 (w.extractLsb' start 7) := by
  have hlow (x : BitVec 8) : x &&& 0x7F#8 = byte7 (x.extractLsb' 0 7) := by revert x; decide
  rw [hlow]
  congr 1
  apply BitVec.eq_of_toNat_eq
  rw [extract_toNat, extract_toNat, extract_toNat]
  omega

theorem and_opcode (w : U32) : w &&& 0xFF000000 = command (opOf w) 0#24 := by
  rw [show (0xFF000000 : U32) = command 0xFF 0#24 from rfl, and_command, BitVec.and_zero]

theorem and_all (w : U32) : w &&& 0xFFFFFFFF = command (opOf w) (nOf w) := by
  rw [show (0xFFFFFFFF : U32) = BitVec.allOnes 32 from rfl, BitVec.and_allOnes, ← word_eq_command]

theorem and_key (w : U32) : w &&& 0xFFFF7F00 = command (opOf w) (aOf w ++ byte7 (b7Of w) ++ 0#8) := by
  rw [show (0xFFFF7F00 : U32) = command 0xFF (0xFF#8 ++ 0x7F#8 ++ 0#8) from rfl, and_command_bytes, and_low7,
    BitVec.and_zero, show (0xFF#8 : BitVec 8) = BitVec.allOnes 8 from rfl, BitVec.and_allOnes, b7Of]

theorem and_keyValue (w : U32) :
    w &&& 0xFFFF7F7F = command (opOf w) (aOf w ++ byte7 (b7Of w) ++ byte7 (c7Of w)) := by
  rw [show (0xFFFF7F7F : U32) = command 0xFF (0xFF#8 ++ 0x7F#8 ++ 0x7F#8) from rfl, and_command_bytes, and_low7, and_low7,
    show (0xFF#8 : BitVec 8) = BitVec.allOnes 8 from rfl, BitVec.and_allOnes, b7Of, c7Of]

/-- The bits of `a` as bits of the word. -/
theorem aOf_getLsbD (w : U32) (i : Nat) (h : i < 8) : (aOf w).getLsbD i = w.getLsbD (16 + i) := by
  rw [aOf, BitVec.getLsbD_extractLsb']; simp [h]

theorem and_vibFlags (w : U32) :
    w &&& 0xFF030000 = command (opOf w) (vibFlags (w.getLsbD 16) (w.getLsbD 17)) := by
  have hflags (a : BitVec 8) : (a &&& 3#8) ++ 0#8 ++ 0#8 = vibFlags (a.getLsbD 0) (a.getLsbD 1) := by revert a; decide
  rw [show (0xFF030000 : U32) = command 0xFF (3#8 ++ 0#8 ++ 0#8) from rfl, and_command_bytes, BitVec.and_zero,
    BitVec.and_zero, hflags, aOf_getLsbD w 0 (by decide), aOf_getLsbD w 1 (by decide)]

theorem and_blendFlag (w : U32) : w &&& 0xFF010000 = command (opOf w) (blendFlag (w.getLsbD 16)) := by
  have hflag (a : BitVec 8) : (a &&& 1#8) ++ 0#8 ++ 0#8 = blendFlag (a.getLsbD 0) := by revert a; decide
  rw [show (0xFF010000 : U32) = command 0xFF (1#8 ++ 0#8 ++ 0#8) from rfl, and_command_bytes, BitVec.and_zero,
    BitVec.and_zero, hflag, aOf_getLsbD w 0 (by decide)]

theorem aOf_append_bcOf (w : U32) : aOf w ++ bcOf w = nOf w := by
  apply BitVec.eq_of_toNat_eq
  refine (append_toNat (aOf w) (bcOf w)).trans ?_
  rw [aOf, bcOf, nOf, extract_toNat, extract_toNat, extract_toNat]
  omega

/-- The opcodes of rule R99. -/
def listedOpcodes : List Nat :=
  [0x10, 0x11, 0x20, 0x21, 0x22, 0x23, 0x30, 0x31, 0x32, 0x33, 0x40, 0x41, 0x50, 0x51, 0x52, 0x53, 0x54, 0x55, 0x56]

theorem decode_of_unlisted (w : U32) (h : (opOf w).toNat ∉ listedOpcodes) :
    decode w = .error (.reservedOpcode (opOf w)) := by
  unfold decode
  split
  case h_20 => rfl
  all_goals simp_all [listedOpcodes]

theorem usedBits_of_unlisted {op : Nat} (h : op ∉ listedOpcodes) : usedBits op = 0xFF000000 := by
  unfold usedBits
  split
  case h_10 => rfl
  all_goals simp [listedOpcodes] at h

/-- A listed opcode selects its row, whose word is the given one without the bits no operand uses. -/
theorem decode_of_listed (w : U32) (h : (opOf w).toNat ∈ listedOpcodes) :
    ∃ i, decode w = .ok i ∧ i.WellFormed ∧ opOf (encode i) = opOf w ∧ encode i = w &&& usedBits (opOf w).toNat := by
  have row (i : Instr) (op : BitVec 8) (operand : BitVec 24) (hop : (opOf w).toNat = op.toNat)
      (hdec : opOf w = op → decode w = .ok i) (hwf : i.WellFormed) (henc : encode i = command op operand)
      (hmask : w &&& usedBits op.toNat = command (opOf w) operand) :
      ∃ i, decode w = .ok i ∧ i.WellFormed ∧ opOf (encode i) = opOf w ∧ encode i = w &&& usedBits (opOf w).toNat := by
    have hop' := BitVec.eq_of_toNat_eq hop
    exact ⟨i, hdec hop', hwf, by rw [henc, opOf_command, hop'], by rw [henc, hop, hmask, hop']⟩
  simp only [listedOpcodes, List.mem_cons, List.not_mem_nil, or_false] at h
  rcases h with h | h | h | h | h | h | h | h | h | h | h | h | h | h | h | h | h | h | h
  · exact row .adpcmDecode 0x10 0 h (by intro e; simp [decode, e]) rfl rfl (and_opcode w)
  · exact row .adpcmFetch 0x11 0 h (by intro e; simp [decode, e]) rfl rfl (and_opcode w)
  · exact row .envLoad 0x20 0 h (by intro e; simp [decode, e]) rfl rfl (and_opcode w)
  · exact row .envKeyon 0x21 0 h (by intro e; simp [decode, e]) rfl rfl (and_opcode w)
  · exact row .envKeyoff 0x22 0 h (by intro e; simp [decode, e]) rfl rfl (and_opcode w)
  · exact row .envTick 0x23 0 h (by intro e; simp [decode, e]) rfl rfl (and_opcode w)
  · exact row (.rvbWrite (aOf w) (bcOf w)) 0x30 (nOf w) h (by intro e; simp [decode, e]) rfl
      (congrArg (command 0x30) (aOf_append_bcOf w)) (and_all w)
  · exact row .rvbReset 0x31 0 h (by intro e; simp [decode, e]) rfl rfl (and_opcode w)
  · exact row .rvbStep 0x32 0 h (by intro e; simp [decode, e]) rfl rfl (and_opcode w)
  · exact row .rvbStepf 0x33 0 h (by intro e; simp [decode, e]) rfl rfl (and_opcode w)
  · exact row (.vibConfig (w.getLsbD 16) (w.getLsbD 17)) 0x40 (vibFlags (w.getLsbD 16) (w.getLsbD 17)) h
      (by intro e; simp [decode, e]) rfl rfl (and_vibFlags w)
  · exact row .vibTick 0x41 0 h (by intro e; simp [decode, e]) rfl rfl (and_opcode w)
  · exact row (.mixNoteOn (aOf w) (b7Of w) (c7Of w)) 0x50 _ h (by intro e; simp [decode, e]) rfl rfl (and_keyValue w)
  · exact row (.mixNoteOff (aOf w) (b7Of w)) 0x51 _ h (by intro e; simp [decode, e]) rfl rfl (and_key w)
  · exact row (.mixProgram (aOf w) (b7Of w)) 0x52 _ h (by intro e; simp [decode, e]) rfl rfl (and_key w)
  · exact row (.mixBend (aOf w) (b7Of w)) 0x53 _ h (by intro e; simp [decode, e]) rfl rfl (and_key w)
  · exact row (.mixCc (aOf w) (b7Of w) (c7Of w)) 0x54 _ h (by intro e; simp [decode, e]) rfl rfl (and_keyValue w)
  · exact row (.mixRender (nOf w)) 0x55 (nOf w) h (by intro e; simp [decode, e]) rfl rfl (and_all w)
  · exact row (.mixBlend (w.getLsbD 16)) 0x56 (blendFlag (w.getLsbD 16)) h (by intro e; simp [decode, e]) rfl rfl
      (and_blendFlag w)

/-- Settles O3. A listed word without its unused bits is the word of the operation it decodes to, so it decodes to the
same by O1; an unlisted one keeps its opcode, the only bits its rejection reads. -/
theorem reservedOpcodesRejected : Obligations.ReservedOpcodesRejected := by
  intro w
  by_cases hop : (opOf w).toNat ∈ listedOpcodes
  case pos =>
    obtain ⟨i, hdec, hwf, hopcode, henc⟩ := decode_of_listed w hop
    refine ⟨?_, .inr ⟨i, hdec, hwf, hopcode, henc, hop⟩⟩
    rw [← henc, hdec, decodeOfEncode i hwf]
  case neg =>
    refine ⟨?_, .inl ⟨decode_of_unlisted w hop, hop⟩⟩
    have hmask : w &&& usedBits (opOf w).toNat = command (opOf w) 0#24 := by
      rw [usedBits_of_unlisted hop, and_opcode]
    have hkept : opOf (command (opOf w) 0#24) = opOf w := opOf_command _ _
    rw [hmask, decode_of_unlisted _ (by rwa [hkept]), decode_of_unlisted w hop, hkept]

/-- Settles O4: each word is decoded by evaluating the decoder on its opcode and operand bytes. -/
theorem sampleWordsDecode : Obligations.SampleWordsDecode :=
  ⟨rfl, rfl, rfl, rfl, rfl, rfl, rfl, rfl⟩

end Sys2Proof.Encoding
end

section
/-! What each operation does to the whole state, said once (rules R13, R99 and R350): every operation ends in the next
state `effect` names. The frame of an operation, the completeness of all and the separation of the units follow from it. -/

open Sys2Proof Sys2Proof.Machine Sys2Proof.Spec Sys2Proof.Laws.Opcode

namespace Sys2Proof.Block

/-! ## The effect of an operation -/

/-- An operation on the channel its operand names; a number that is no channel is ignored (rule R352). -/
def onChannel (a : BitVec 8) (f : Nat → State) (s : State) : State :=
  match channelOf Config.machine a with
  | none => s
  | some k => f k

theorem onChannel_of_invalid {a : BitVec 8} (ha : 15 < a.toNat) (f : Nat → State) (s : State) :
    onChannel a f s = s := by
  simp [onChannel, Mixer.channelOf_of_gt ha]

theorem onChannel_of_valid {a : BitVec 8} {k : Nat} (ha : a.toNat = k) (hk : k < 16) (f : Nat → State) (s : State) :
    onChannel a f s = f k := by
  simp [onChannel, Mixer.channelOf_of_lt ha hk]

/-- What holds of the ignored case and of every channel holds of the operation. -/
theorem onChannel_induction {P : State → Prop} (a : BitVec 8) (f : Nat → State) (s : State) (hs : P s)
    (hf : ∀ k, k < 16 → P (f k)) : P (onChannel a f s) := by
  rcases Nat.lt_or_ge 15 a.toNat with ha | ha
  · rwa [onChannel_of_invalid ha]
  · rw [onChannel_of_valid rfl (by omega)]
    exact hf _ (by omega)

/-- The state a presented operation ends in. -/
def effect (i : Instr) (s : State) : State :=
  match i with
  | .adpcmDecode => { s with result := .decoded (adpcmDecode Config.machine s.ports.buf) }
  | .adpcmFetch =>
    { s with cache := adpcmFetch Config.machine s.src s.cache s.ports.offset, result := .handle s.ports.offset }
  | .envLoad => { s with envd := Env.load Config.machine s.envd s.ports.lo16 s.ports.hi16 }
  | .envKeyon => { s with envd := Env.keyOn Config.machine s.envd }
  | .envKeyoff => { s with envd := Env.keyOff Config.machine s.envd }
  | .envTick =>
    { s with
      envd := Env.tick Config.machine s.envd
      result := .level (Env.tick Config.machine s.envd).level (Env.tick Config.machine s.envd).phase }
  | .rvbWrite index value =>
    match rvbIndexOf index with
    | none => s
    | some i => { s with rvb := s.rvb.writeReg Config.machine i value }
  | .rvbReset => { s with rvb := s.rvb.clear Config.machine }
  | .rvbStep =>
    let r := s.rvb.stepFrame Config.machine s.ports.inL s.ports.inR
    { s with rvb := r.1, result := .frame r.2.1 r.2.2 }
  | .rvbStepf =>
    let r := s.rvb.stepFrameF Config.machine s.ports.inFL s.ports.inFR
    { s with rvb := r.1, result := .frameF r.2.1 r.2.2 }
  | .vibConfig hasShape hasDepth =>
    { s with vibd := s.vibd.config Config.machine hasShape hasDepth s.ports.shape s.ports.depthRaw s.ports.depth }
  | .vibTick =>
    let r := s.vibd.tick Config.machine s.ports.rate s.ports.drate
    { s with vibd := r.1, result := .semis r.2 }
  | .mixNoteOn a key velocity => onChannel a (fun k => noteOn Config.machine s k key velocity) s
  | .mixNoteOff a key => onChannel a (fun k => noteOff Config.machine s k key) s
  | .mixProgram a program => onChannel a (fun k => setChannel s k { channelAt s.ch k with program := program }) s
  | .mixBend a bend =>
    onChannel a (fun k => setChannel s k { channelAt s.ch k with bend := bendRatio Config.machine bend (channelPitchMult s k) }) s
  | .mixCc a number value => onChannel a (fun k => controlChange Config.machine s k number value) s
  | .mixRender n => { render Config.machine n.toNat s with result := .rendered }
  | .mixBlend rev => { blend Config.machine rev s with result := .blended }
  | .fmtAdpcmHdr _ _ => s
  | .fmtAdpcmFlags _ _ _ => s
  | .fmtAdsr _ _ _ _ _ _ _ _ _ _ _ => s
  | .fmtRate _ _ => s

theorem exec_rvbStep (s : State) : exec .rvbStep s = .next (effect .rvbStep s) :=
  if_neg (Reverb.span_ne_zero s.rvb)

theorem exec_rvbStepf (s : State) : exec .rvbStepf s = .next (effect .rvbStepf s) :=
  if_neg (Reverb.span_ne_zero s.rvb)

theorem exec_rvbWrite (index : BitVec 8) (value : U16) (s : State) :
    exec (.rvbWrite index value) s = .next (effect (.rvbWrite index value) s) := by
  show execRvbWrite index value s = _
  cases h : rvbIndexOf index <;> simp [execRvbWrite, effect, h, ignored]

theorem exec_mixBlend (rev : Bool) (s : State) : exec (.mixBlend rev) s = .next (effect (.mixBlend rev) s) := by
  show execMixBlend rev s = _
  simp [execMixBlend, Reverb.span_ne_zero, withResult, effect]

/-- An operation on a channel is `onChannel` of what it does to a valid one. -/
theorem channelOp_eq (a : BitVec 8) (f : Nat → State) (s : State) :
    (match channelOf Config.machine a with
      | none => (ignored s : Host.Outcome State Fault Refusal)
      | some k => .next (f k)) = .next (onChannel a f s) := by
  unfold onChannel
  cases channelOf Config.machine a <;> rfl

/-- Every operation ends in its effect; the reverb's steps do because the span is never empty with the default
parameters. -/
theorem exec_eq_effect (i : Instr) (s : State) (hwf : i.WellFormed) : exec i s = .next (effect i s) := by
  cases i with
  | adpcmDecode | adpcmFetch | envLoad | envKeyon | envKeyoff | envTick | rvbReset | vibConfig | vibTick | mixRender => rfl
  | rvbWrite index value => exact exec_rvbWrite index value s
  | rvbStep => exact exec_rvbStep s
  | rvbStepf => exact exec_rvbStepf s
  | mixNoteOn a key velocity => exact channelOp_eq a _ s
  | mixNoteOff a key => exact channelOp_eq a _ s
  | mixProgram a program => exact channelOp_eq a _ s
  | mixBend a bend => exact channelOp_eq a _ s
  | mixCc a number value => exact channelOp_eq a _ s
  | mixBlend rev => exact exec_mixBlend rev s
  | fmtAdpcmHdr | fmtAdpcmFlags | fmtAdsr | fmtRate => simp [Instr.WellFormed, Instr.isOperation] at hwf

/-- A data format has no effect because it is refused. -/
theorem exec_of_not_wf (i : Instr) (s : State) (hwf : ¬ i.WellFormed) : exec i s = .refused .dataFormat := by
  cases i with
  | fmtAdpcmHdr | fmtAdpcmFlags | fmtAdsr | fmtRate => rfl
  | _ => exact absurd rfl hwf

/-- Settles O9: the effect is the next state. -/
theorem everyOperationCompletes : Obligations.EveryOperationCompletes :=
  fun i s hwf => ⟨effect i s, exec_eq_effect i s hwf⟩

/-- Settles O10. -/
theorem dataFormatsRefused : Obligations.DataFormatsRefused := exec_of_not_wf

/-- What answers a next state is an operation, and that state is its effect. -/
theorem exec_eq_next_iff (i : Instr) (s t : State) : exec i s = .next t ↔ i.WellFormed ∧ t = effect i s := by
  by_cases hwf : i.WellFormed
  · rw [exec_eq_effect i s hwf, Host.Outcome.next.injEq]
    exact ⟨fun h => ⟨hwf, h.symm⟩, fun h => h.2.symm⟩
  · rw [exec_of_not_wf i s hwf]
    exact ⟨fun h => (nomatch h), fun h => absurd h.1 hwf⟩

/-! ## The step -/

/-- Settles O7: the presented state is the one the statement writes out. -/
theorem stepRunsDecodedOperation : Obligations.StepRunsDecodedOperation := by
  intro s c rest i hqueue hdec
  rcases step_cases s with ⟨hnil, _⟩ | ⟨c', rest', hcons, hstep⟩
  · simp [hqueue] at hnil
  · obtain ⟨rfl, rfl⟩ := List.cons.inj (hqueue.symm.trans hcons)
    rcases hstep with ⟨j, hj, hstep⟩ | ⟨e, he, _⟩
    · obtain rfl := Except.ok.inj (hdec.symm.trans hj)
      exact hstep
    · simp [hdec] at he

/-- Settles O8: the two cases of `step` that run no operation. -/
theorem stepIdleOrIgnored : Obligations.StepIdleOrIgnored := by
  refine ⟨fun s hqueue => ?idle, fun s c rest e hqueue hdec => ?ignored⟩
  case idle =>
    rcases step_cases s with ⟨_, hstep⟩ | ⟨c, rest, hcons, _⟩
    · exact hstep
    · simp [hqueue] at hcons
  case ignored =>
    rcases step_cases s with ⟨hnil, _⟩ | ⟨c', rest', hcons, hstep⟩
    · simp [hqueue] at hnil
    · obtain ⟨rfl, rfl⟩ := List.cons.inj (hqueue.symm.trans hcons)
      rcases hstep with ⟨j, hj, _⟩ | ⟨e', _, hstep⟩
      · simp [hdec] at hj
      · exact hstep

/-! ## Frames of the mixer's operations -/

theorem noteOn_frame (cfg : Config) (s : State) (k : Nat) (key velocity : U7) :
    ∃ c vs ch, noteOn cfg s k key velocity = { s with cache := c, voices := vs, ch := ch } := by
  simp only [noteOn, noteOnProgram]
  repeat' split
  all_goals exact ⟨_, _, _, rfl⟩

theorem setSustain_frame (cfg : Config) (s : State) (k : Nat) (on : Bool) :
    ∃ vs ch, setSustain cfg s k on = { s with voices := vs, ch := ch } := by
  cases on <;> exact ⟨_, _, rfl⟩

theorem controlChange_frame (cfg : Config) (s : State) (k : Nat) (number value : U7) :
    ∃ vs ch, controlChange cfg s k number value = { s with voices := vs, ch := ch } := by
  unfold controlChange
  dsimp only
  split
  case h_8 => exact setSustain_frame cfg s k _
  case h_10 => split <;> exact ⟨_, _, rfl⟩
  all_goals exact ⟨_, _, rfl⟩

theorem render_frame (cfg : Config) (n : Nat) (s : State) :
    ∃ ch vs o, render cfg n s = { s with ch := ch, voices := vs, out := o } := ⟨_, _, _, rfl⟩

theorem blend_frame (cfg : Config) (rev : Bool) (s : State) :
    ∃ rv o, blend cfg rev s = { s with rvb := rv, out := o } ∧ (rev = false → rv = s.rvb) := by
  cases rev with
  | false => exact ⟨s.rvb, _, rfl, fun _ => rfl⟩
  | true => exact ⟨_, _, rfl, fun h => by simp at h⟩

/-! ## What an operation can write, by its unit -/

/-- What the operations of each unit can write (rules R35 and R345), the unit being the high digit of the opcode. -/
inductive Writes (i : Instr) (s : State) : State → Prop
  | adpcm (c : SMap DecodedSample) (r : Result) (hunit : Spec.unit i = 1) (hcache : i ≠ .adpcmFetch → c = s.cache) :
      Writes i s { s with cache := c, result := r }
  | envelope (e : Env) (r : Result) (hunit : Spec.unit i = 2) : Writes i s { s with envd := e, result := r }
  | reverb (rv : Reverb) (r : Result) (hunit : Spec.unit i = 3) : Writes i s { s with rvb := rv, result := r }
  | vibrato (v : Vib) (r : Result) (hunit : Spec.unit i = 4) : Writes i s { s with vibd := v, result := r }
  | mixer (c : SMap DecodedSample) (rv : Reverb) (ch : List ChannelState) (vs : List Voice) (o : OutBuffers) (r : Result)
      (hunit : Spec.unit i = 5) (hcache : (∀ a k v, i ≠ .mixNoteOn a k v) → c = s.cache)
      (hrvb : i ≠ .mixBlend true → rv = s.rvb) :
      Writes i s { s with cache := c, rvb := rv, ch := ch, voices := vs, out := o, result := r }

theorem unit_of_encode {i : Instr} {op : BitVec 8} {x : BitVec 24} {n : Nat} (h : encode i = command op x)
    (hn : op.toNat / 16 = n) : Spec.unit i = n := by
  rw [Spec.unit, h, opOf_command, hn]

/-- A mixer operation on a channel that changes channels and voices only. -/
theorem Writes.onChannel {i : Instr} {s : State} (hunit : Spec.unit i = 5) (a : BitVec 8) (f : Nat → State)
    (hf : ∀ k, ∃ vs ch, f k = { s with voices := vs, ch := ch }) : Writes i s (onChannel a f s) := by
  refine onChannel_induction (P := Writes i s) a f s ?_ fun k _ => ?_
  · exact .mixer s.cache s.rvb s.ch s.voices s.out s.result hunit (fun _ => rfl) (fun _ => rfl)
  · obtain ⟨vs, ch, h⟩ := hf k
    rw [h]
    exact .mixer s.cache s.rvb ch vs s.out s.result hunit (fun _ => rfl) (fun _ => rfl)

theorem effect_writes (i : Instr) (s : State) (hwf : i.WellFormed) : Writes i s (effect i s) := by
  cases i with
  | adpcmDecode => exact .adpcm _ _ rfl fun _ => rfl
  | adpcmFetch => exact .adpcm _ _ rfl fun h => absurd rfl h
  | envLoad | envKeyon | envKeyoff | envTick => exact .envelope _ _ rfl
  | rvbWrite index value =>
    simp only [effect]
    split
    · exact .reverb s.rvb s.result (unit_of_encode rfl rfl)
    · exact .reverb _ s.result (unit_of_encode rfl rfl)
  | rvbReset | rvbStep | rvbStepf => exact .reverb _ _ rfl
  | vibConfig hasShape hasDepth => exact .vibrato _ _ (unit_of_encode rfl rfl)
  | vibTick => exact .vibrato _ _ rfl
  | mixNoteOn a key velocity =>
    refine onChannel_induction (P := Writes _ s) a _ s ?_ fun k _ => ?_
    · exact .mixer s.cache s.rvb s.ch s.voices s.out s.result (unit_of_encode rfl rfl) (fun _ => rfl) (fun _ => rfl)
    · obtain ⟨c, vs, ch, h⟩ := noteOn_frame Config.machine s k key velocity
      rw [h]
      exact .mixer c s.rvb ch vs s.out s.result (unit_of_encode rfl rfl) (fun hne => absurd rfl (hne a key velocity))
        (fun _ => rfl)
  | mixNoteOff a key => exact .onChannel (unit_of_encode rfl rfl) a _ fun k => ⟨_, _, rfl⟩
  | mixProgram a program => exact .onChannel (unit_of_encode rfl rfl) a _ fun k => ⟨_, _, rfl⟩
  | mixBend a bend => exact .onChannel (unit_of_encode rfl rfl) a _ fun k => ⟨_, _, rfl⟩
  | mixCc a number value => exact .onChannel (unit_of_encode rfl rfl) a _ fun k => controlChange_frame _ s k number value
  | mixRender n =>
    obtain ⟨ch, vs, o, h⟩ := render_frame Config.machine n.toNat s
    simp only [effect, h]
    exact .mixer s.cache s.rvb ch vs o .rendered (unit_of_encode rfl rfl) (fun _ => rfl) (fun _ => rfl)
  | mixBlend rev =>
    obtain ⟨rv, o, h, hrvb⟩ := blend_frame Config.machine rev s
    simp only [effect, h]
    exact .mixer s.cache rv s.ch s.voices o .blended (unit_of_encode rfl rfl) (fun _ => rfl)
      (fun hne => hrvb (by simpa using hne))
  | fmtAdpcmHdr | fmtAdpcmFlags | fmtAdsr | fmtRate => simp [Instr.WellFormed, Instr.isOperation] at hwf

theorem writes_of_exec {i : Instr} {s t : State} (h : exec i s = .next t) : Writes i s t := by
  obtain ⟨hwf, rfl⟩ := (exec_eq_next_iff i s t).mp h
  exact effect_writes i s hwf

/-- Settles O59: no unit's write reaches what the host owns. -/
theorem hostInputsAreConstant : Obligations.HostInputsAreConstant := by
  intro i s t h
  cases writes_of_exec h <;> exact ⟨rfl, rfl, rfl, rfl, rfl⟩

/-- Settles O58. -/
theorem unitsAreIsolated : Obligations.UnitsAreIsolated := by
  intro i s t hwf h
  cases writes_of_exec h with
  | adpcm c r hunit hcache =>
    exact ⟨fun _ => rfl, fun _ => rfl, fun _ _ => rfl, fun _ => ⟨rfl, rfl, rfl⟩, fun hne _ => hcache hne⟩
  | envelope e r hunit =>
    exact ⟨fun hne => absurd hunit hne, fun _ => rfl, fun _ _ => rfl, fun _ => ⟨rfl, rfl, rfl⟩, fun _ _ => rfl⟩
  | reverb rv r hunit =>
    exact ⟨fun _ => rfl, fun _ => rfl, fun hne => absurd hunit hne, fun _ => ⟨rfl, rfl, rfl⟩, fun _ _ => rfl⟩
  | vibrato v r hunit =>
    exact ⟨fun _ => rfl, fun hne => absurd hunit hne, fun _ _ => rfl, fun _ => ⟨rfl, rfl, rfl⟩, fun _ _ => rfl⟩
  | mixer c rv ch vs o r hunit hcache hrvb =>
    exact ⟨fun _ => rfl, fun _ => rfl, fun _ hne => hrvb hne, fun hne => absurd hunit hne, fun _ hne => hcache hne⟩

end Sys2Proof.Block
end

section
/-! The numerics of rule R11 on the number line: what number a bit pattern stands for, that rounding gives the nearest
one, and that the sum and the product are therefore correctly rounded (decision D2).

The finite magnitudes are counted by their bit pattern, exponent above fraction; `units` is the magnitude in units of
2^-1074. It rises strictly with the pattern, so the two neighbours of a real magnitude are consecutive patterns. -/

open Sys2Proof Sys2Proof.Machine Sys2Proof.Spec

namespace Sys2Proof.Numeric

/-! ## Magnitudes by bit pattern -/

/-- The magnitude of a bit pattern (exponent above 52 bits of fraction) in units of 2^-1074. -/
def units (bits : Nat) : Nat :=
  if bits < 2 ^ 52 then bits else (2 ^ 52 + bits % 2 ^ 52) * 2 ^ (bits / 2 ^ 52 - 1)

/-- The bit pattern one above the largest finite one. -/
def infBits : Nat := 2047 * 2 ^ 52

/-- A significand `q` at exponent step `k` stands for `q * 2^k` units, also where `q` has just grown to 2^53. -/
theorem units_pattern {k q : Nat} (hq : q ≤ 2 ^ 53) (hk : k = 0 ∨ 2 ^ 52 ≤ q) : units (k * 2 ^ 52 + q) = q * 2 ^ k := by
  have hcases : (k = 0 ∧ q < 2 ^ 52) ∨ (2 ^ 52 ≤ q ∧ q < 2 ^ 53) ∨ q = 2 ^ 53 := by omega
  rcases hcases with ⟨rfl, hsmall⟩ | ⟨hlow, hhigh⟩ | rfl
  · rw [Nat.zero_mul, Nat.zero_add, units, if_pos hsmall, pow_zero, Nat.mul_one]
  · have hdiv : (k * 2 ^ 52 + q) / 2 ^ 52 = k + 1 := by omega
    have hmod : (k * 2 ^ 52 + q) % 2 ^ 52 = q - 2 ^ 52 := by omega
    rw [units, if_neg (by omega), hdiv, hmod, Nat.add_sub_cancel, Nat.add_sub_cancel' hlow]
  · have hdiv : (k * 2 ^ 52 + 2 ^ 53) / 2 ^ 52 = k + 2 := by omega
    have hmod : (k * 2 ^ 52 + 2 ^ 53) % 2 ^ 52 = 0 := by omega
    rw [units, if_neg (by omega), hdiv, hmod, Nat.add_succ_sub_one, Nat.add_zero, pow_succ]
    ring

/-- Every pattern has such a significand and step, with room for one more. -/
theorem exists_pattern (b : Nat) : ∃ k q, b = k * 2 ^ 52 + q ∧ q < 2 ^ 53 ∧ (k = 0 ∨ 2 ^ 52 ≤ q) := by
  by_cases h : b < 2 ^ 53
  · exact ⟨0, b, by omega, h, .inl rfl⟩
  · exact ⟨b / 2 ^ 52 - 1, 2 ^ 52 + b % 2 ^ 52, by omega, by omega, .inr (by omega)⟩

theorem units_lt_succ (b : Nat) : units b < units (b + 1) := by
  obtain ⟨k, q, rfl, hq, hk⟩ := exists_pattern b
  rw [units_pattern (by omega) hk, Nat.add_assoc, units_pattern (by omega) (by omega)]
  exact Nat.mul_lt_mul_of_pos_right (Nat.lt_succ_self q) (Nat.two_pow_pos k)

theorem units_strictMono : StrictMono units := strictMono_nat_of_lt_succ units_lt_succ

@[simp] theorem units_zero : units 0 = 0 := rfl

/-- Half a unit of the largest finite exponent, counted in units of 2^-1074. It has a name so that no tactic
evaluates it. -/
def topHalf : Nat := 2 ^ 2044

theorem units_top {q : Nat} (hlow : 2 ^ 52 ≤ q) (hq : q ≤ 2 ^ 53) : units (2045 * 2 ^ 52 + q) = 2 * q * topHalf := by
  rw [units_pattern hq (.inr hlow), pow_succ' 2 2044, ← topHalf, ← Nat.mul_assoc, Nat.mul_comm q 2]

theorem units_infBits : units infBits = 2 ^ 54 * topHalf := by
  rw [show infBits = 2045 * 2 ^ 52 + 2 ^ 53 from rfl, units_top (by norm_num) le_rfl]; norm_num

theorem units_maxFinite : units (infBits - 1) = (2 ^ 54 - 2) * topHalf := by
  rw [show infBits - 1 = 2045 * 2 ^ 52 + (2 ^ 53 - 1) from rfl, units_top (by norm_num) (by norm_num)]; norm_num

/-- Every significand of up to 53 bits is met exactly, at every scale that fits the format. -/
theorem exists_units (j : Nat) : ∀ q, q ≤ 2 ^ 53 → ∃ b, b ≤ (j + 2) * 2 ^ 52 ∧ units b = q * 2 ^ j := by
  induction j with
  | zero =>
    intro q hq
    have hunits := units_pattern (k := 0) hq (.inl rfl)
    rw [Nat.zero_mul, Nat.zero_add] at hunits
    exact ⟨q, by omega, hunits⟩
  | succ j ih =>
    intro q hq
    by_cases hlow : 2 ^ 52 ≤ q
    · exact ⟨(j + 1) * 2 ^ 52 + q, by omega, units_pattern hq (.inr hlow)⟩
    · obtain ⟨b, hb, hunits⟩ := ih (2 * q) (by omega)
      exact ⟨b, hb.trans (Nat.mul_le_mul_right _ (by omega)), by rw [hunits, pow_succ]; ring⟩

/-! ## Nearest pattern -/

/-- `b` is the pattern nearest to `r` units, the even one of two equally near ones. -/
def Nearest (b : Nat) (r : ℚ) : Prop :=
  ∀ b', |(units b : ℚ) - r| ≤ |(units b' : ℚ) - r| ∧
    (units b' ≠ units b → |(units b' : ℚ) - r| = |(units b : ℚ) - r| → b % 2 = 0)

/-- Where `r` lies between two consecutive patterns, every other one lies beyond one of them. -/
theorem units_outside (b b' : Nat) : units b' ≤ units b ∨ units (b + 1) ≤ units b' := by
  rcases Nat.lt_or_ge b b' with h | h
  · exact .inr (units_strictMono.monotone h)
  · exact .inl (units_strictMono.monotone h)

/-- The lower neighbour is nearest where `r` is not past the middle, and in the middle where it is even. -/
theorem nearest_lower {b : Nat} {r : ℚ} (hlo : (units b : ℚ) ≤ r) (hmid : 2 * r ≤ units b + units (b + 1))
    (htie : 2 * r = units b + units (b + 1) → b % 2 = 0) : Nearest b r := by
  have hlt : (units b : ℚ) < units (b + 1) := by exact_mod_cast units_lt_succ b
  intro b'
  rw [abs_of_nonpos (sub_nonpos.mpr hlo)]
  rcases units_outside b b' with h | h
  · have h' : (units b' : ℚ) ≤ units b := by exact_mod_cast h
    rw [abs_of_nonpos (by linarith)]
    refine ⟨by linarith, fun hne heq => absurd ?_ hne⟩
    exact_mod_cast (by linarith : (units b' : ℚ) = units b)
  · have h' : (units (b + 1) : ℚ) ≤ units b' := by exact_mod_cast h
    rw [abs_of_nonneg (by linarith)]
    exact ⟨by linarith, fun _ heq => htie (by linarith)⟩

/-- The upper neighbour is nearest where `r` is not before the middle, and in the middle where it is even. -/
theorem nearest_upper {b : Nat} {r : ℚ} (hhi : r ≤ units (b + 1)) (hmid : units b + units (b + 1) ≤ 2 * r)
    (htie : 2 * r = units b + units (b + 1) → (b + 1) % 2 = 0) : Nearest (b + 1) r := by
  have hlt : (units b : ℚ) < units (b + 1) := by exact_mod_cast units_lt_succ b
  intro b'
  rw [abs_of_nonneg (sub_nonneg.mpr hhi)]
  rcases units_outside b b' with h | h
  · have h' : (units b' : ℚ) ≤ units b := by exact_mod_cast h
    rw [abs_of_nonpos (by linarith)]
    exact ⟨by linarith, fun _ heq => htie (by linarith)⟩
  · have h' : (units (b + 1) : ℚ) ≤ units b' := by exact_mod_cast h
    rw [abs_of_nonneg (by linarith)]
    refine ⟨by linarith, fun hne heq => absurd ?_ hne⟩
    exact_mod_cast (by linarith : (units b' : ℚ) = units (b + 1))

theorem nearest_zero : Nearest 0 0 := by
  refine nearest_lower (by simp) ?_ ?_ <;> simp

/-- The magnitude, in units, from which on rounding overflows. -/
def overflowUnits : ℚ := (2 ^ 54 - 1) * topHalf

theorem overflowUnits_eq : overflowUnits = overflow * 2 ^ 1074 := by
  have hhigh : (2 : ℚ) ^ 1024 = 2 ^ 54 * 2 ^ 970 := by rw [← pow_add]
  have hunit : (topHalf : ℚ) = 2 ^ 970 * 2 ^ 1074 := by
    rw [topHalf, Nat.cast_pow, ← pow_add]; rfl
  rw [overflow, overflowUnits, hhigh, hunit]
  generalize (2 : ℚ) ^ 970 = x
  generalize (2 : ℚ) ^ 1074 = y
  ring

theorem overflowUnits_mid : 2 * overflowUnits = units (infBits - 1) + units infBits := by
  rw [units_maxFinite, units_infBits, overflowUnits]
  push_cast
  ring

/-- The nearest pattern is finite exactly below half a unit above the largest finite value: in the middle itself the
largest finite pattern is odd. -/
theorem nearest_lt_infBits_iff {b : Nat} {r : ℚ} (h : Nearest b r) : b < infBits ↔ r < overflowUnits := by
  have hmid := overflowUnits_mid
  have hlt : (units (infBits - 1) : ℚ) < units infBits := by exact_mod_cast units_strictMono (by decide)
  constructor
  · intro hb
    by_contra hr
    push Not at hr
    have hb' : (units b : ℚ) ≤ units (infBits - 1) := by
      exact_mod_cast units_strictMono.monotone (Nat.le_sub_one_of_lt hb)
    obtain ⟨hnear, htie⟩ := h infBits
    have hleft : |(units b : ℚ) - r| = r - units b := by rw [abs_of_nonpos (by linarith)]; ring
    have hright : |(units infBits : ℚ) - r| ≤ r - units (infBits - 1) := abs_le.mpr ⟨by linarith, by linarith⟩
    have heq : (units b : ℚ) = units (infBits - 1) := by linarith
    have hodd : b % 2 = 0 := htie
      (fun e => by rw [e] at hlt; exact absurd heq (by rw [← e] at *; linarith)) (by linarith)
    have hbeq : b = infBits - 1 := units_strictMono.injective (by exact_mod_cast heq)
    rw [hbeq] at hodd
    exact absurd hodd (by decide)
  · intro hr
    by_contra hb
    have hb' : (units infBits : ℚ) ≤ units b := by exact_mod_cast units_strictMono.monotone (Nat.le_of_not_lt hb)
    obtain ⟨hnear, _⟩ := h (infBits - 1)
    have hleft : |(units b : ℚ) - r| = units b - r := abs_of_nonneg (by linarith)
    have hright : |(units (infBits - 1) : ℚ) - r| < units b - r := abs_lt.mpr ⟨by linarith, by linarith⟩
    linarith

end Sys2Proof.Numeric
end

section
/-! The operations of rule R11 are correctly rounded (decision D2): what a finite `Flt` stands for, what `Flt.round` makes
of an exact dyadic number, and so what the sum, the product and the conversion of integers give. -/

open Sys2Proof Sys2Proof.Machine Sys2Proof.Spec

namespace Sys2Proof.Numeric

/-! ## The number a finite value stands for -/

/-- 2^-1074, the unit the magnitudes are counted in. -/
def tiny : ℚ := 2 ^ (-1074 : ℤ)

theorem tiny_pos : 0 < tiny := zpow_pos (by norm_num) _

theorem tiny_mul_zpow (x : ℤ) : tiny * 2 ^ (x + 1074) = 2 ^ x := by
  rw [tiny, ← zpow_add₀ (by norm_num)]; congr 1; ring

/-- The sign as a factor. -/
def sgn (neg : Bool) : ℚ := if neg then -1 else 1

theorem abs_sgn (neg : Bool) : |sgn neg| = 1 := by cases neg <;> simp [sgn]

theorem sgn_mul (a b : Bool) : sgn a * sgn b = sgn (a ^^ b) := by cases a <;> cases b <;> simp [sgn]

theorem signed_cast (neg : Bool) (m : Nat) : ((signed neg m : ℤ) : ℚ) = sgn neg * m := by
  cases neg <;> simp [signed, sgn]

/-- The bit pattern of the magnitude. -/
def pattern (x : Flt) : Nat := x.key.natAbs

theorem pattern_fin (n : Bool) (e : Fin 2047) (f : BitVec 52) : pattern (.fin n e f) = e.val * 2 ^ 52 + f.toNat := by
  cases n <;> simp [pattern, Flt.key, signed] <;> omega

theorem pattern_lt {x : Flt} (hx : x.isFinite = true) : pattern x < infBits := by
  cases x with
  | fin n e f => rw [pattern_fin, infBits]; have := e.isLt; have := f.isLt; omega
  | nan | inf => simp [Flt.isFinite] at hx

theorem key_eq {x : Flt} (hx : x.isFinite = true) : x.key = signed x.neg (pattern x) := by
  cases x with
  | fin n e f => rw [pattern_fin]; rfl
  | nan | inf => simp [Flt.isFinite] at hx

/-- The value by significand and scale, as the operations compute with it. -/
theorem value_eq_sig {x : Flt} (hx : x.isFinite = true) : value x = signed x.neg x.sig * 2 ^ x.scale := by
  cases x with
  | fin n e f =>
    rw [signed_cast]
    simp only [value, Flt.sig, Flt.scale, Flt.neg, sgn]
    congr 2
    split <;> push_cast <;> norm_num
  | nan | inf => simp [Flt.isFinite] at hx

/-- The value by bit pattern. -/
theorem value_eq {x : Flt} (hx : x.isFinite = true) : value x = sgn x.neg * units (pattern x) * tiny := by
  cases x with
  | fin n e f =>
    have hf : f.toNat < 2 ^ 52 := f.isLt
    rw [value_eq_sig hx, signed_cast, pattern_fin, mul_assoc, mul_assoc]
    congr 1
    simp only [Flt.sig, Flt.scale]
    rcases Nat.eq_zero_or_pos e.val with he | he
    · have hscale : ((max e.val 1 : Nat) : ℤ) - 1075 = -1074 := by omega
      have hunits : units (e.val * 2 ^ 52 + f.toNat) = f.toNat := by
        rw [he, Nat.zero_mul, Nat.zero_add, units, if_pos hf]
      simp only [if_pos he, hscale, hunits, tiny]
    · have hpat : e.val * 2 ^ 52 + f.toNat = (e.val - 1) * 2 ^ 52 + (2 ^ 52 + f.toNat) := by omega
      have hscale : ((max e.val 1 : Nat) : ℤ) - 1075 = ((e.val - 1 : Nat) : ℤ) + -1074 := by omega
      have hpow (k : Nat) : (2 : ℚ) ^ ((k : ℤ) + -1074) = 2 ^ k * tiny := by
        rw [zpow_add₀ (by norm_num), zpow_natCast, tiny]
      rw [if_neg (by omega), hpat, units_pattern (by omega) (.inr (by omega)), hscale, hpow]
      push_cast
      ring
  | nan | inf => simp [Flt.isFinite] at hx

theorem abs_value {x : Flt} (hx : x.isFinite = true) : |value x| = units (pattern x) * tiny := by
  rw [value_eq hx, abs_mul, abs_mul, abs_sgn, one_mul, abs_of_nonneg tiny_pos.le, Nat.abs_cast]

@[simp] theorem value_signed_zero (n : Bool) : value (.fin n 0 0) = 0 := by simp [value]

@[simp] theorem value_zero : value .zero = 0 := value_signed_zero false

/-- A finite value is known by its sign and its number. -/
theorem eq_of_value_eq {x y : Flt} (hx : x.isFinite = true) (hy : y.isFinite = true) (hneg : x.neg = y.neg)
    (hvalue : value x = value y) : x = y := by
  have hunits : units (pattern x) = units (pattern y) := by
    have h : (units (pattern x) : ℚ) * tiny = units (pattern y) * tiny := by
      rw [← abs_value hx, ← abs_value hy, hvalue]
    exact_mod_cast mul_right_cancel₀ tiny_pos.ne' h
  have hpat := units_strictMono.injective hunits
  cases x with
  | fin n e f =>
    cases y with
    | fin m e' f' =>
      rw [pattern_fin, pattern_fin] at hpat
      have := f.isLt
      have := f'.isLt
      have he : e = e' := Fin.ext (by omega)
      have hf : f = f' := BitVec.eq_of_toNat_eq (by omega)
      rw [he, hf, show n = m from hneg]
    | nan | inf => simp [Flt.isFinite] at hy
  | nan | inf => simp [Flt.isFinite] at hx

theorem value_nonneg {x : Flt} (hneg : x.neg = false) : 0 ≤ value x := by
  cases x with
  | fin n e f =>
    rw [value_eq rfl, hneg]
    exact mul_nonneg (mul_nonneg zero_le_one (Nat.cast_nonneg _)) tiny_pos.le
  | nan | inf => simp [value]

theorem value_nonpos {x : Flt} (hneg : x.neg = true) : value x ≤ 0 := by
  cases x with
  | fin n e f =>
    rw [value_eq rfl, hneg]
    have h : (0 : ℚ) ≤ units (pattern (.fin n e f)) * tiny := mul_nonneg (Nat.cast_nonneg _) tiny_pos.le
    rw [mul_assoc, sgn, if_pos rfl]
    linarith
  | nan | inf => simp [value]

/-- The sign of a number that is not 0 is the sign bit. -/
theorem neg_eq_decide {x : Flt} (hvalue : value x ≠ 0) : x.neg = decide (value x < 0) := by
  cases h : x.neg
  · have := value_nonneg h
    simpa using this
  · have := lt_of_le_of_ne (value_nonpos h) hvalue
    simpa using this

/-- Equal numbers other than 0 are equal values. -/
theorem eq_of_value_ne_zero {x y : Flt} (hx : x.isFinite = true) (hy : y.isFinite = true) (hvalue : value x = value y)
    (hne : value x ≠ 0) : x = y :=
  eq_of_value_eq hx hy (by rw [neg_eq_decide hne, neg_eq_decide (hvalue ▸ hne), hvalue]) hvalue

/-- A key as a number of units: the number line on which `Flt.key` is the position. -/
def line (z : ℤ) : ℚ := if z < 0 then -(units z.natAbs : ℚ) else units z.natAbs

theorem line_strictMono : StrictMono line := by
  intro a b hab
  have hmono {m n : Nat} (h : m < n) : (units m : ℚ) < units n := by exact_mod_cast units_strictMono h
  simp only [line]
  split <;> split
  · exact neg_lt_neg (hmono (by omega))
  · have hneg : (units 0 : ℚ) < units a.natAbs := hmono (by omega)
    have hpos : (0 : ℚ) ≤ units b.natAbs := Nat.cast_nonneg _
    rw [units_zero, Nat.cast_zero] at hneg
    linarith
  · omega
  · exact hmono (by omega)

theorem value_eq_line {x : Flt} (hx : x.isFinite = true) : value x = line x.key * tiny := by
  rw [value_eq hx, key_eq hx]
  congr 1
  cases x.neg
  · simp [sgn, signed, line]
  · rcases Nat.eq_zero_or_pos (pattern x) with h | h
    · simp [sgn, signed, line, h]
    · simp [sgn, signed, line, h]

theorem key_lt_iff {x y : Flt} (hx : x.isFinite = true) (hy : y.isFinite = true) :
    x.key < y.key ↔ value x < value y := by
  rw [value_eq_line hx, value_eq_line hy, mul_lt_mul_iff_left₀ tiny_pos, line_strictMono.lt_iff_lt]

theorem lt_iff_value {x y : Flt} (hx : x.isFinite = true) (hy : y.isFinite = true) :
    x.lt y = true ↔ value x < value y := by
  rw [Flt.lt_iff_key x y hx hy, key_lt_iff hx hy]

theorem le_iff_value {x y : Flt} (hx : x.isFinite = true) (hy : y.isFinite = true) :
    x.le y = true ↔ value x ≤ value y := by
  rw [Flt.le_iff_key x y hx hy, ← not_lt, key_lt_iff hy hx, not_lt]

theorem eq_iff_value {x y : Flt} (hx : x.isFinite = true) (hy : y.isFinite = true) :
    x.eq y = true ↔ value x = value y := by
  have hkey : x.eq y = true ↔ x.key = y.key := by
    simp [Flt.eq, Flt.isNaN_of_finite x hx, Flt.isNaN_of_finite y hy]
  rw [hkey, le_antisymm_iff, ← not_lt, ← not_lt, key_lt_iff hx hy, key_lt_iff hy hx, not_lt, not_lt, ← le_antisymm_iff]

/-! ## Rounding -/

theorem ofBits_of_lt (neg : Bool) {b : Nat} (hb : b < infBits) : (Flt.ofBits neg b).isFinite = true ∧
    (Flt.ofBits neg b).neg = neg ∧ pattern (Flt.ofBits neg b) = b := by
  have h : b < 9218868437227405312 := hb
  rw [Flt.ofBits, dif_pos h]
  refine ⟨rfl, rfl, ?_⟩
  rw [pattern_fin, BitVec.toNat_ofNat]
  show b / 4503599627370496 * 2 ^ 52 + b % 2 ^ 52 = b
  omega

theorem ofBits_of_le (neg : Bool) {b : Nat} (hb : infBits ≤ b) : Flt.ofBits neg b = .inf neg :=
  dif_neg (Nat.not_lt.mpr hb)

theorem ofBits_neg (neg : Bool) (b : Nat) : (Flt.ofBits neg b).neg = neg := by
  rcases Nat.lt_or_ge b infBits with hb | hb
  · exact (ofBits_of_lt neg hb).2.1
  · rw [ofBits_of_le neg hb]; rfl

/-- Keeping the high bits `q` of `q * 2^(k+s) + rem` and adding 1 by the rule of nearest even gives the nearest
pattern. -/
theorem nearest_of_remainder {k q rem s : Nat} (hq : q < 2 ^ 53) (hk : k = 0 ∨ 2 ^ 52 ≤ q) (hrem : rem < 2 ^ (k + s)) :
    Nearest (k * 2 ^ 52 + q + if 2 ^ (k + s) < 2 * rem ∨ (2 * rem = 2 ^ (k + s) ∧ q % 2 = 1) then 1 else 0)
      ((q * 2 ^ (k + s) + rem : Nat) / 2 ^ s) := by
  have hlo : (units (k * 2 ^ 52 + q) : ℚ) = q * 2 ^ k := by exact_mod_cast units_pattern (by omega) hk
  have hhi : (units (k * 2 ^ 52 + q + 1) : ℚ) = (q + 1) * 2 ^ k := by
    rw [Nat.add_assoc]; exact_mod_cast units_pattern (q := q + 1) (by omega) (by omega)
  have hpos : (0 : ℚ) < 2 ^ s := by positivity
  have hr : (((q * 2 ^ (k + s) + rem : Nat) : ℚ) / 2 ^ s) = q * 2 ^ k + rem / 2 ^ s := by
    rw [div_eq_iff hpos.ne', add_mul, div_mul_cancel₀ _ hpos.ne']
    push_cast
    ring
  have hcast (a b : Nat) : a < b ↔ (a : ℚ) < b := Nat.cast_lt.symm
  have hlt : 2 ^ (k + s) < 2 * rem ↔ (2 : ℚ) ^ k < 2 * (rem / 2 ^ s) := by
    rw [← mul_div_assoc, lt_div_iff₀ hpos, ← pow_add]; exact_mod_cast Iff.rfl
  have hgt : 2 * rem < 2 ^ (k + s) ↔ 2 * (rem / 2 ^ s) < (2 : ℚ) ^ k := by
    rw [← mul_div_assoc, div_lt_iff₀ hpos, ← pow_add]; exact_mod_cast Iff.rfl
  have hnonneg : (0 : ℚ) ≤ rem / 2 ^ s := by positivity
  have hle : (rem : ℚ) / 2 ^ s ≤ 2 ^ k := by
    rw [div_le_iff₀ hpos, ← pow_add]; exact_mod_cast hrem.le
  rw [hr]
  rcases Nat.lt_trichotomy (2 * rem) (2 ^ (k + s)) with h | h | h
  · have h' := hgt.mp h
    rw [if_neg (by omega), Nat.add_zero]
    exact nearest_lower (by rw [hlo]; linarith) (by rw [hlo, hhi]; linarith) (fun e => by rw [hlo, hhi] at e; linarith)
  · have h1 : ¬ (2 : ℚ) ^ k < 2 * (rem / 2 ^ s) := fun hc => by have := hlt.mpr hc; omega
    have h2 : ¬ 2 * (rem / 2 ^ s) < (2 : ℚ) ^ k := fun hc => by have := hgt.mpr hc; omega
    have hmid : 2 * (rem / 2 ^ s) = (2 : ℚ) ^ k := le_antisymm (not_lt.mp h1) (not_lt.mp h2)
    rcases Nat.mod_two_eq_zero_or_one q with heven | hodd
    · rw [if_neg (by omega), Nat.add_zero]
      exact nearest_lower (by rw [hlo]; linarith) (by rw [hlo, hhi]; linarith) (fun _ => by omega)
    · rw [if_pos (.inr ⟨h, hodd⟩)]
      exact nearest_upper (by rw [hhi]; linarith) (by rw [hlo, hhi]; linarith) (fun _ => by omega)
  · have h' := hlt.mp h
    rw [if_pos (.inl h)]
    exact nearest_upper (by rw [hhi]; linarith) (by rw [hlo, hhi]; linarith) (fun e => by rw [hlo, hhi] at e; linarith)

/-- `roundUnits` by its quotient and remainder. -/
theorem roundUnits_eq (neg : Bool) (u s : Nat) :
    let d := max (Nat.log2 u - 52) s
    Flt.roundUnits neg u s false = Flt.ofBits neg ((d - s) * 2 ^ 52 + u / 2 ^ d +
      if 2 ^ d < 2 * (u % 2 ^ d) ∨ (2 * (u % 2 ^ d) = 2 ^ d ∧ u / 2 ^ d % 2 = 1) then 1 else 0) := by
  intro d
  have hmod : u - u / 2 ^ d * 2 ^ d = u % 2 ^ d := by rw [Nat.mul_comm]; exact (Nat.mod_eq_sub _ _).symm
  simp only [Flt.roundUnits, Nat.shiftRight_eq_div_pow, Nat.shiftLeft_eq, one_mul, Bool.false_or]
  rw [hmod]
  simp [d]

/-- The pattern `roundUnits` chooses is nearest to the magnitude it rounds. -/
theorem roundUnits_nearest (neg : Bool) {u : Nat} (s : Nat) (hu : u ≠ 0) :
    ∃ b, Flt.roundUnits neg u s false = Flt.ofBits neg b ∧ Nearest b (u / 2 ^ s) := by
  have hlow : 2 ^ Nat.log2 u ≤ u := Nat.log2_self_le hu
  have hhigh : u < 2 ^ (Nat.log2 u + 1) := Nat.lt_log2_self
  have hround := roundUnits_eq neg u s
  dsimp only at hround
  obtain ⟨k, hk⟩ : ∃ k, max (Nat.log2 u - 52) s = k + s := ⟨max (Nat.log2 u - 52) s - s, by omega⟩
  rw [hk, Nat.add_sub_cancel] at hround
  refine ⟨_, hround, ?_⟩
  have hq : u / 2 ^ (k + s) < 2 ^ 53 := by
    rw [Nat.div_lt_iff_lt_mul (Nat.two_pow_pos _), ← pow_add]
    exact hhigh.trans_le (Nat.pow_le_pow_right (by decide) (by omega))
  have hq' : k = 0 ∨ 2 ^ 52 ≤ u / 2 ^ (k + s) := by
    rcases Nat.eq_zero_or_pos k with h | h
    · exact .inl h
    · refine .inr ?_
      rw [Nat.le_div_iff_mul_le (Nat.two_pow_pos _), ← pow_add]
      exact (Nat.pow_le_pow_right (by decide) (by omega)).trans hlow
  have hnear := nearest_of_remainder (s := s) hq hq' (Nat.mod_lt u (Nat.two_pow_pos (k + s)))
  rwa [Nat.div_add_mod'] at hnear

/-- `Flt.round` of `n * 2^x` chooses the pattern nearest to it, counted in units of 2^-1074. -/
theorem round_nearest (neg : Bool) (n : Nat) (x : ℤ) :
    ∃ b, Flt.round neg n x false = Flt.ofBits neg b ∧ Nearest b (n * 2 ^ (x + 1074)) := by
  cases n with
  | zero => exact ⟨0, rfl, by simpa using nearest_zero⟩
  | succ m =>
    rw [Flt.round]
    split
    · next hx =>
      obtain ⟨j, hj⟩ := Int.eq_ofNat_of_zero_le hx
      have hu : (m + 1) <<< (x + 1074).toNat ≠ 0 := by
        rw [Nat.shiftLeft_eq]; positivity
      obtain ⟨b, hb, hnear⟩ := roundUnits_nearest neg 0 hu
      refine ⟨b, hb, ?_⟩
      rw [hj, Int.toNat_natCast, Nat.shiftLeft_eq, pow_zero, div_one] at hnear
      rw [hj, zpow_natCast]
      exact_mod_cast hnear
    · next hx =>
      obtain ⟨j, hj⟩ := Int.eq_ofNat_of_zero_le (a := -(x + 1074)) (by omega)
      obtain ⟨b, hb, hnear⟩ := roundUnits_nearest neg (-(x + 1074)).toNat (Nat.succ_ne_zero m)
      refine ⟨b, hb, ?_⟩
      rw [hj, Int.toNat_natCast] at hnear
      rw [show x + 1074 = -(j : ℤ) by omega, zpow_neg, zpow_natCast, ← div_eq_mul_inv]
      exact hnear

theorem evenFraction_ofBits (neg : Bool) {b : Nat} (hb : b < infBits) (heven : b % 2 = 0) :
    evenFraction (Flt.ofBits neg b) := by
  have h : b < 9218868437227405312 := hb
  rw [Flt.ofBits, dif_pos h]
  show (BitVec.ofNat 52 b).toNat % 2 = 0
  rw [BitVec.toNat_ofNat]
  omega

theorem abs_sgn_sub_same (neg : Bool) (u r : ℚ) : |sgn neg * u - sgn neg * r| = |u - r| := by
  rw [← mul_sub, abs_mul, abs_sgn, one_mul]

theorem abs_sgn_sub_other {a b : Bool} (hab : a ≠ b) {u r : ℚ} (hu : 0 ≤ u) (hr : 0 ≤ r) :
    |sgn a * u - sgn b * r| = u + r := by
  cases a <;> cases b <;> simp only [sgn, if_true, if_false, Bool.false_eq_true, ne_eq, not_true_eq_false] at hab ⊢
  · rw [abs_of_nonneg (by linarith)]; ring
  · rw [abs_of_nonpos (by linarith)]; ring

/-- No signed magnitude is nearer than the nearest one of the same sign: one of the other sign is no nearer than 0. -/
theorem nearest_signed (neg n : Bool) (a : Nat) {b : Nat} {r : ℚ} (hr : 0 ≤ r) (h : Nearest b r) :
    |sgn neg * units b - sgn neg * r| ≤ |sgn n * units a - sgn neg * r| ∧
      (sgn n * units a ≠ sgn neg * units b →
        |sgn n * units a - sgn neg * r| = |sgn neg * units b - sgn neg * r| → b % 2 = 0) := by
  have hu : (0 : ℚ) ≤ units a := Nat.cast_nonneg _
  rw [abs_sgn_sub_same]
  by_cases hsign : n = neg
  · rw [hsign, abs_sgn_sub_same]
    exact ⟨(h a).1, fun hne heq => (h a).2 (fun e => hne (by rw [e])) heq⟩
  · have hzero : |(units 0 : ℚ) - r| = r := by simp [abs_of_nonneg hr]
    obtain ⟨hnear, htie⟩ := h 0
    rw [hzero] at hnear htie
    rw [abs_sgn_sub_other hsign hu hr]
    refine ⟨by linarith, fun hne heq => htie (fun e => hne ?_) (by linarith)⟩
    have ha : (units a : ℚ) = 0 := by linarith
    rw [ha, ← e]; simp

theorem overflow_eq : overflow = overflowUnits * tiny := by
  have hunit : (2 : ℚ) ^ 1074 * tiny = 1 := by
    rw [tiny, ← zpow_natCast, ← zpow_add₀ (by norm_num)]; rfl
  rw [overflowUnits_eq, mul_assoc, hunit, mul_one]

theorem overflowUnits_pos : 0 < overflowUnits := by rw [overflowUnits, topHalf]; positivity

/-- The nearest pattern with a sign is the rounding of the signed magnitude. -/
theorem isRounded_of_nearest (neg : Bool) {b : Nat} {r : ℚ} (hr : 0 ≤ r) (h : Nearest b r) :
    IsRounded (sgn neg * r * tiny) (Flt.ofBits neg b) := by
  have ht := tiny_pos
  have hpos := overflowUnits_pos
  rw [IsRounded, overflow_eq, ← neg_mul, mul_le_mul_iff_left₀ ht, mul_le_mul_iff_left₀ ht, abs_mul, abs_mul, abs_sgn,
    one_mul, abs_of_nonneg hr, abs_of_pos ht, mul_lt_mul_iff_left₀ ht]
  refine ⟨fun hsmall => ?inRange, fun hbig => ?positive, fun hbig => ?negative⟩
  case inRange =>
    have hb := (nearest_lt_infBits_iff h).mpr hsmall
    obtain ⟨hfin, hneg, hpat⟩ := ofBits_of_lt neg hb
    refine ⟨hfin, fun w hw => ?_⟩
    obtain ⟨hnear, htie⟩ := nearest_signed neg w.neg (pattern w) hr h
    rw [value_eq hfin, hneg, hpat, value_eq hw, ← sub_mul, ← sub_mul, abs_mul, abs_mul, abs_of_pos ht,
      mul_le_mul_iff_left₀ ht, mul_left_inj' ht.ne']
    exact ⟨hnear, fun hne heq => evenFraction_ofBits neg hb (htie (fun e => hne (by rw [e])) heq)⟩
  case positive =>
    cases neg with
    | false =>
      rw [sgn, if_neg (by decide), one_mul, ← not_lt, ← nearest_lt_infBits_iff h] at hbig
      exact ofBits_of_le false (Nat.le_of_not_lt hbig)
    | true => rw [sgn, if_pos rfl] at hbig; linarith
  case negative =>
    cases neg with
    | false => rw [sgn, if_neg (by decide)] at hbig; linarith
    | true =>
      rw [sgn, if_pos rfl, neg_one_mul, neg_le_neg_iff, ← not_lt, ← nearest_lt_infBits_iff h] at hbig
      exact ofBits_of_le true (Nat.le_of_not_lt hbig)

/-- `Flt.round` is correctly rounded. -/
theorem round_isRounded (neg : Bool) (n : Nat) (x : ℤ) :
    IsRounded (signed neg n * 2 ^ x) (Flt.round neg n x false) := by
  obtain ⟨b, hb, hnear⟩ := round_nearest neg n x
  have h := isRounded_of_nearest neg (mul_nonneg (Nat.cast_nonneg n) (zpow_nonneg (by norm_num) _)) hnear
  rwa [← hb, mul_assoc, mul_assoc, mul_comm _ tiny, tiny_mul_zpow, ← mul_assoc, ← signed_cast] at h

theorem round_neg (neg : Bool) (n : Nat) (x : ℤ) : (Flt.round neg n x false).neg = neg := by
  obtain ⟨b, hb, _⟩ := round_nearest neg n x
  rw [hb, ofBits_neg]

/-! ## Sum and product -/

theorem shift_scale (x : Flt) {k : ℤ} (hk : k ≤ x.scale) :
    ((x.sig <<< (x.scale - k).toNat : Nat) : ℚ) * 2 ^ k = x.sig * 2 ^ x.scale := by
  obtain ⟨j, hj⟩ := Int.eq_ofNat_of_zero_le (a := x.scale - k) (by omega)
  rw [hj, Int.toNat_natCast, Nat.shiftLeft_eq, Nat.cast_mul, Nat.cast_pow, Nat.cast_ofNat, mul_assoc, ← zpow_natCast,
    ← zpow_add₀ (by norm_num), show (j : ℤ) + k = x.scale by omega]

/-- The exact sum of two finite values, at the scale of the smaller one. -/
def exactSum (x y : Flt) : ℤ :=
  signed x.neg (x.sig <<< (x.scale - min x.scale y.scale).toNat) +
    signed y.neg (y.sig <<< (y.scale - min x.scale y.scale).toNat)

theorem exactSum_value {x y : Flt} (hx : x.isFinite = true) (hy : y.isFinite = true) :
    (exactSum x y : ℚ) * 2 ^ min x.scale y.scale = value x + value y := by
  rw [exactSum, Int.cast_add, signed_cast, signed_cast, add_mul, mul_assoc, mul_assoc, shift_scale x (min_le_left _ _),
    shift_scale y (min_le_right _ _), value_eq_sig hx, value_eq_sig hy, signed_cast, signed_cast, mul_assoc, mul_assoc]

theorem add_eq {x y : Flt} (hx : x.isFinite = true) (hy : y.isFinite = true) :
    x.add y = if exactSum x y = 0 then .fin (x.neg && y.neg) 0 0
      else Flt.round (decide (exactSum x y < 0)) (exactSum x y).natAbs (min x.scale y.scale) false := by
  cases x with
  | fin n e f =>
    cases y with
    | fin m e' f' => rfl
    | nan | inf => simp [Flt.isFinite] at hy
  | nan | inf => simp [Flt.isFinite] at hx

theorem mul_eq {x y : Flt} (hx : x.isFinite = true) (hy : y.isFinite = true) :
    x.mul y = Flt.round (x.neg ^^ y.neg) (x.sig * y.sig) (x.scale + y.scale) false := by
  cases x with
  | fin n e f =>
    cases y with
    | fin m e' f' => rfl
    | nan | inf => simp [Flt.isFinite] at hy
  | nan | inf => simp [Flt.isFinite] at hx

theorem signed_decide_natAbs (v : ℤ) : signed (decide (v < 0)) v.natAbs = v := by
  by_cases h : v < 0
  · simp only [signed, h, decide_true, if_true]; omega
  · simp only [signed, h, decide_false, Bool.false_eq_true, if_false]; omega

theorem exactSum_eq_zero_iff {x y : Flt} (hx : x.isFinite = true) (hy : y.isFinite = true) :
    exactSum x y = 0 ↔ value x + value y = 0 := by
  rw [← exactSum_value hx hy, mul_eq_zero, Int.cast_eq_zero, or_iff_left (zpow_ne_zero _ (by norm_num))]

theorem isRounded_signed_zero (n : Bool) : IsRounded 0 (.fin n 0 0) := by
  have h := isRounded_of_nearest n le_rfl nearest_zero
  rwa [mul_zero, zero_mul] at h

theorem add_isRounded {x y : Flt} (hx : x.isFinite = true) (hy : y.isFinite = true) :
    IsRounded (value x + value y) (x.add y) := by
  rw [add_eq hx hy]
  split
  · next h =>
    rw [(exactSum_eq_zero_iff hx hy).mp h]
    exact isRounded_signed_zero _
  · have h := round_isRounded (decide (exactSum x y < 0)) (exactSum x y).natAbs (min x.scale y.scale)
    rwa [signed_decide_natAbs, exactSum_value hx hy] at h

theorem add_of_sum_zero {x y : Flt} (hx : x.isFinite = true) (hy : y.isFinite = true) (h : value x + value y = 0) :
    x.add y = .fin (x.neg && y.neg) 0 0 := by
  rw [add_eq hx hy, if_pos ((exactSum_eq_zero_iff hx hy).mpr h)]

theorem mul_isRounded {x y : Flt} (hx : x.isFinite = true) (hy : y.isFinite = true) :
    IsRounded (value x * value y) (x.mul y) := by
  have h := round_isRounded (x.neg ^^ y.neg) (x.sig * y.sig) (x.scale + y.scale)
  have hvalue : (signed (x.neg ^^ y.neg) (x.sig * y.sig) : ℚ) * 2 ^ (x.scale + y.scale) = value x * value y := by
    rw [value_eq_sig hx, value_eq_sig hy, signed_cast, signed_cast, signed_cast, ← sgn_mul, zpow_add₀ (by norm_num)]
    push_cast
    ring
  rwa [hvalue, ← mul_eq hx hy] at h

theorem mul_neg {x y : Flt} (hx : x.isFinite = true) (hy : y.isFinite = true) : (x.mul y).neg = (x.neg ^^ y.neg) := by
  rw [mul_eq hx hy, round_neg]

/-- Settles O57. -/
theorem sumAndProductAreNearest : Obligations.SumAndProductAreNearest :=
  fun _ _ hx hy => ⟨add_isRounded hx hy, mul_isRounded hx hy, add_of_sum_zero hx hy, mul_neg hx hy⟩

end Sys2Proof.Numeric
end

section
/-! What correct rounding gives the rules that compute with FLT: integers and short dyadic numbers are exact, the floor
is the mathematical one, the two adapters between samples and FLT (rule R12), and the interpolation of a table (rules
R245 and R247). -/

open Sys2Proof Sys2Proof.Machine Sys2Proof.Spec

namespace Sys2Proof.Numeric

/-! ## Exact results -/

theorem maxFinite_lt_overflow : ((units (infBits - 1) : Nat) : ℚ) < overflowUnits := by
  have hmid := overflowUnits_mid
  have hlt : (units (infBits - 1) : ℚ) < units infBits := by exact_mod_cast units_strictMono (by decide)
  linarith

theorem abs_value_lt_overflow {w : Flt} (hw : w.isFinite = true) : |value w| < overflow := by
  rw [abs_value hw, overflow_eq, mul_lt_mul_iff_left₀ tiny_pos]
  refine lt_of_le_of_lt ?_ maxFinite_lt_overflow
  exact_mod_cast units_strictMono.monotone (Nat.le_sub_one_of_lt (pattern_lt hw))

/-- A rounded result is the number itself where a finite value stands for it. -/
theorem exact_of_isRounded {r : ℚ} {z w : Flt} (h : IsRounded r z) (hw : w.isFinite = true) (hr : value w = r) :
    z.isFinite = true ∧ value z = r := by
  obtain ⟨hfin, hnear⟩ := h.1 (hr ▸ abs_value_lt_overflow hw)
  refine ⟨hfin, ?_⟩
  have hdist := (hnear w hw).1
  rw [hr, sub_self, abs_zero] at hdist
  exact sub_eq_zero.mp (abs_nonpos_iff.mp hdist)

/-- Every significand of up to 53 bits is met by a finite value, at every scale from the smallest on. -/
theorem exists_value {m k : ℤ} (hm : |m| ≤ 2 ^ 53) (hk : -1074 ≤ k) (hk' : k ≤ 900) :
    ∃ w : Flt, w.isFinite = true ∧ value w = m * 2 ^ k := by
  obtain ⟨j, hj⟩ := Int.eq_ofNat_of_zero_le (a := k + 1074) (by omega)
  obtain ⟨b, hb, hunits⟩ := exists_units j m.natAbs (by zify; exact hm)
  have hlt : b < infBits := by
    have hj' : j + 2 ≤ 2000 := by omega
    exact hb.trans_lt ((Nat.mul_le_mul_right _ hj').trans_lt (by rw [infBits]; norm_num))
  obtain ⟨hfin, hneg, hpat⟩ := ofBits_of_lt (decide (m < 0)) hlt
  refine ⟨_, hfin, ?_⟩
  have hpow : (2 : ℚ) ^ k = 2 ^ j * tiny := by
    rw [← tiny_mul_zpow k, hj]
    exact mul_comm _ _
  have hsign : sgn (decide (m < 0)) * m.natAbs = m := by
    rw [← signed_cast, signed_decide_natAbs]
  rw [value_eq hfin, hneg, hpat, hunits, hpow, Nat.cast_mul, Nat.cast_pow, Nat.cast_ofNat, ← mul_assoc, hsign, mul_assoc]

/-- A rounded result of moderate size is near the exact one. -/
theorem near_of_isRounded {r : ℚ} {z : Flt} (h : IsRounded r z) (hr : |r| ≤ 2 ^ 9) :
    z.isFinite = true ∧ |value z - r| ≤ 1 / 2 ^ 44 := by
  have hfloor : |⌊r * 2 ^ 44⌋| ≤ (2 : ℤ) ^ 53 := by
    obtain ⟨h1, h2⟩ := abs_le.mp hr
    refine abs_le.mpr ⟨Int.le_floor.mpr ?_, ?_⟩
    · push_cast; linarith
    · have := Int.floor_le (r * 2 ^ 44)
      exact_mod_cast (by linarith : (⌊r * 2 ^ 44⌋ : ℚ) ≤ 2 ^ 53)
  obtain ⟨w, hw, hvalue⟩ := exists_value (k := -44) hfloor (by norm_num) (by norm_num)
  have hdist : |value w - r| ≤ 1 / 2 ^ 44 := by
    have h1 := Int.floor_le (r * 2 ^ 44)
    have h2 := Int.lt_floor_add_one (r * 2 ^ 44)
    have hpow : (2 : ℚ) ^ (-44 : ℤ) = 1 / 2 ^ 44 := by norm_num
    rw [hvalue, hpow]
    generalize (⌊r * 2 ^ 44⌋ : ℚ) = m at *
    exact abs_le.mpr ⟨by linarith, by linarith⟩
  have hsmall : |r| < overflow := by
    obtain ⟨u, hu, hunits⟩ := exists_value (m := 1) (k := 10) (by norm_num) (by norm_num) (by norm_num)
    have hlt := abs_value_lt_overflow hu
    rw [hunits] at hlt
    norm_num at hlt hr ⊢
    linarith
  obtain ⟨hfin, hnear⟩ := h.1 hsmall
  exact ⟨hfin, (hnear w hw).1.trans hdist⟩

/-! ## Integers -/

theorem ofInt_isRounded (v : ℤ) : IsRounded v (Flt.ofInt v) := by
  have h := round_isRounded (decide (v < 0)) v.natAbs 0
  rwa [signed_decide_natAbs, zpow_zero, mul_one] at h

theorem ofInt_neg (v : ℤ) : (Flt.ofInt v).neg = decide (v < 0) := round_neg _ _ _

/-- Integers of up to 53 bits are exact (rule R11). -/
theorem ofInt_exact {v : ℤ} (hv : |v| ≤ 2 ^ 53) : (Flt.ofInt v).isFinite = true ∧ value (Flt.ofInt v) = v := by
  obtain ⟨w, hw, hvalue⟩ := exists_value (k := 0) hv (by norm_num) (by norm_num)
  rw [zpow_zero, mul_one] at hvalue
  exact exact_of_isRounded (ofInt_isRounded v) hw hvalue

theorem ofNat_isRounded (n : Nat) : IsRounded n (Flt.ofNat n) := by
  rw [Flt.ofNat]
  simpa using ofInt_isRounded n

theorem ofNat_neg (n : Nat) : (Flt.ofNat n).neg = false := by
  rw [Flt.ofNat, ofInt_neg]; simp

theorem ofNat_exact {n : Nat} (hn : n ≤ 2 ^ 53) : (Flt.ofNat n).isFinite = true ∧ value (Flt.ofNat n) = n := by
  have h := ofInt_exact (v := n) (by rw [Nat.abs_cast]; exact_mod_cast hn)
  exact_mod_cast h

@[simp] theorem ofNat_zero : Flt.ofNat 0 = .zero := rfl

/-- A rounded number is finite or the infinity of its sign. -/
theorem finite_or_inf {r : ℚ} {z : Flt} (h : IsRounded r z) :
    z.isFinite = true ∨ (0 < r ∧ z = .inf false) ∨ (r < 0 ∧ z = .inf true) := by
  have hpos : 0 < overflow := by rw [overflow_eq]; exact mul_pos overflowUnits_pos tiny_pos
  rcases lt_or_ge |r| overflow with hr | hr
  · exact .inl (h.1 hr).1
  · rcases le_abs'.mp hr with hr | hr
    · exact .inr (.inr ⟨by linarith, h.2.2 hr⟩)
    · exact .inr (.inl ⟨by linarith, h.2.1 hr⟩)

theorem ofNat_not_nan (n : Nat) : (Flt.ofNat n).isNaN = false := by
  rcases finite_or_inf (ofNat_isRounded n) with h | ⟨_, h⟩ | ⟨_, h⟩
  · exact Flt.isNaN_of_finite _ h
  · rw [h]; rfl
  · rw [h]; rfl

theorem zero_le_inf : Flt.zero.le (.inf false) = true := by simp [Flt.le, Flt.isNaN, Flt.zero, Flt.key, signed]

theorem zero_lt_inf : Flt.zero.lt (.inf false) = true := by simp [Flt.lt, Flt.isNaN, Flt.zero, Flt.key, signed]

theorem zero_le_ofNat (n : Nat) : Flt.zero.le (Flt.ofNat n) = true := by
  rcases finite_or_inf (ofNat_isRounded n) with h | ⟨_, h⟩ | ⟨hr, _⟩
  · exact (le_iff_value rfl h).mpr (by rw [value_zero]; exact value_nonneg (ofNat_neg n))
  · rw [h]; exact zero_le_inf
  · exact absurd hr (by simp)

/-- A positive natural number is positive as FLT, also where it overflows. -/
theorem zero_lt_ofNat {n : Nat} (hn : 1 ≤ n) : Flt.zero.lt (Flt.ofNat n) = true := by
  have hround := ofNat_isRounded n
  rcases finite_or_inf hround with h | ⟨_, h⟩ | ⟨hr, _⟩
  · rw [lt_iff_value rfl h, value_zero]
    rcases lt_or_ge |(n : ℚ)| overflow with hr | hr
    · obtain ⟨hone, hvalue⟩ := ofNat_exact (n := 1) (by norm_num)
      have hnear := ((hround.1 hr).2 _ hone).1
      have hn' : (1 : ℚ) ≤ n := by exact_mod_cast hn
      rw [hvalue] at hnear
      rw [Nat.cast_one, abs_of_nonpos (by linarith : (1 : ℚ) - n ≤ 0)] at hnear
      have := (abs_le.mp hnear).1
      linarith
    · rw [abs_of_nonneg (by positivity)] at hr
      rw [hround.2.1 hr] at h
      simp [Flt.isFinite] at h
  · rw [h]; exact zero_lt_inf
  · exact absurd hr (by simp)

theorem ofNat_lt_ofNat {m n : Nat} (hmn : m < n) (hn : n ≤ 2 ^ 53) : (Flt.ofNat m).lt (Flt.ofNat n) = true := by
  obtain ⟨hm, hmv⟩ := ofNat_exact (n := m) (by omega)
  obtain ⟨hn, hnv⟩ := ofNat_exact hn
  rw [lt_iff_value hm hn, hmv, hnv]
  exact_mod_cast hmn

/-! ## Floor and truncation -/

theorem floorInt_eq {x : Flt} (hx : x.isFinite = true) : x.floorInt = ⌊value x⌋ := by
  rw [value_eq_sig hx, Flt.floorInt]
  split
  · next h =>
    obtain ⟨j, hj⟩ := Int.eq_ofNat_of_zero_le h
    rw [hj, Int.toNat_natCast, zpow_natCast, Nat.shiftLeft_eq]
    have hcast : ((signed x.neg (x.sig * 2 ^ j) : ℤ) : ℚ) = signed x.neg x.sig * 2 ^ j := by
      rw [signed_cast, signed_cast]; push_cast; ring
    rw [← hcast, Int.floor_intCast]
  · next h =>
    obtain ⟨j, hj⟩ := Int.eq_ofNat_of_zero_le (a := -x.scale) (by omega)
    rw [hj, Int.toNat_natCast, asr, show x.scale = -(j : ℤ) by omega, zpow_neg, zpow_natCast, ← div_eq_mul_inv]
    have hfloor := Rat.floor_intCast_div_natCast (signed x.neg x.sig) (2 ^ j)
    push_cast at hfloor
    exact hfloor.symm

/-- The floor in FLT is the mathematical one where that is an integer of up to 53 bits. -/
theorem floor_exact {x : Flt} (hx : x.isFinite = true) (hsize : |⌊value x⌋| ≤ 2 ^ 53) :
    x.floor.isFinite = true ∧ value x.floor = ⌊value x⌋ := by
  obtain ⟨hfin, hvalue⟩ := ofInt_exact hsize
  rw [Flt.floor, if_pos hx, floorInt_eq hx]
  dsimp only
  split
  · next h => exact ⟨hx, by rw [← hvalue]; exact (eq_iff_value hx hfin).mp h⟩
  · exact ⟨hfin, hvalue⟩

theorem floor_floorInt {x : Flt} (hx : x.isFinite = true) (hsize : |⌊value x⌋| ≤ 2 ^ 53) :
    x.floor.floorInt = ⌊value x⌋ := by
  obtain ⟨hfin, hvalue⟩ := floor_exact hx hsize
  rw [floorInt_eq hfin, hvalue, Int.floor_intCast]

/-- `trunc(x * 32768)` drops the fraction of the magnitude. -/
theorem truncQ15_eq {x : Flt} (hx : x.isFinite = true) : x.truncQ15 = signed x.neg ⌊|value x| * 2 ^ 15⌋₊ := by
  have habs : |value x| * 2 ^ 15 = x.sig * 2 ^ (x.scale + 15) := by
    rw [value_eq_sig hx, signed_cast, abs_mul, abs_mul, abs_sgn, one_mul, Nat.abs_cast, zpow_add₀ (by norm_num),
      abs_of_pos (zpow_pos (by norm_num) _), mul_assoc]
    norm_num
  rw [habs, Flt.truncQ15]
  split
  · next h =>
    obtain ⟨j, hj⟩ := Int.eq_ofNat_of_zero_le h
    rw [hj, Int.toNat_natCast, zpow_natCast, Nat.shiftLeft_eq]
    have hcast : (x.sig : ℚ) * 2 ^ j = ((x.sig * 2 ^ j : Nat) : ℚ) := by push_cast; ring
    rw [hcast, Nat.floor_natCast]
  · next h =>
    obtain ⟨j, hj⟩ := Int.eq_ofNat_of_zero_le (a := -(x.scale + 15)) (by omega)
    rw [hj, Int.toNat_natCast, Nat.shiftRight_eq_div_pow, show x.scale + 15 = -(j : ℤ) by omega, zpow_neg, zpow_natCast,
      ← div_eq_mul_inv]
    have hfloor : ⌊(x.sig : ℚ) / ((2 ^ j : Nat) : ℚ)⌋₊ = x.sig / 2 ^ j := Nat.floor_div_eq_div _ _
    push_cast at hfloor
    rw [hfloor]

/-! ## The adapters of rule R12 -/

theorem toPcm_of_finite {x : Flt} (hx : x.isFinite = true) :
    (toPcm x).toInt = sat16 (signed x.neg ⌊|value x| * 2 ^ 15⌋₊) := by
  rw [toPcm, machine_num, numerics_toS16_of_finite x hx, toS16_toInt, truncQ15_eq hx]

theorem toPcm_of_not_finite {x : Flt} (hx : x.isFinite = false) : toPcm x = 0 := by
  rw [toPcm, machine_num, numerics_toS16_of_not_finite x hx]

/-- Truncation toward zero keeps the order: it is the floor of the magnitude on either side of 0. -/
theorem signed_floor_mono {x y : Flt} (h : value x ≤ value y) :
    signed x.neg ⌊|value x| * 2 ^ 15⌋₊ ≤ signed y.neg ⌊|value y| * 2 ^ 15⌋₊ := by
  cases hx : x.neg <;> cases hy : y.neg <;> simp only [signed, if_true, if_false, Bool.false_eq_true]
  · have hx0 := value_nonneg hx
    rw [abs_of_nonneg hx0, abs_of_nonneg (hx0.trans h)]
    exact Int.ofNat_le.mpr (Nat.floor_le_floor (by linarith))
  · have hx0 : value x = 0 := le_antisymm (h.trans (value_nonpos hy)) (value_nonneg hx)
    have hy0 : value y = 0 := le_antisymm (value_nonpos hy) (hx0 ▸ h)
    simp [hx0, hy0]
  · omega
  · have hy0 := value_nonpos hy
    rw [abs_of_nonpos hy0, abs_of_nonpos (h.trans hy0), neg_le_neg_iff]
    exact Int.ofNat_le.mpr (Nat.floor_le_floor (by linarith))

theorem value_one : value .one = 1 := by
  have h := (ofNat_exact (n := 1) (by norm_num)).2
  rwa [Nat.cast_one, show Flt.ofNat 1 = .one by decide +kernel] at h

theorem value_negate_one : value Flt.one.negate = -1 := by
  have h := (ofInt_exact (v := -1) (by norm_num)).2
  rw [show Flt.ofInt (-1) = Flt.one.negate by decide +kernel] at h
  exact_mod_cast h

/-- Settles O55: each clause is about the truncated product, which saturates beyond 16 bits. -/
theorem adapterSaturates : Obligations.AdapterSaturates := by
  refine ⟨fun x y hx hy hle => ?mono, fun x hx hle => ?top, fun x hx hle => ?bottom, fun x hx hlo hhi => ?small,
    fun x hx => toPcm_of_not_finite hx⟩
  case mono =>
    rw [toPcm_of_finite hx, toPcm_of_finite hy]
    exact sat16_mono _ _ (signed_floor_mono ((le_iff_value hx hy).mp hle))
  case top =>
    have hvalue : 1 ≤ value x := value_one ▸ (le_iff_value rfl hx).mp hle
    have hneg : x.neg = false := by
      by_contra h
      have := value_nonpos (Bool.eq_true_of_not_eq_false h)
      linarith
    have hfloor : 2 ^ 15 ≤ ⌊|value x| * 2 ^ 15⌋₊ := by
      rw [abs_of_nonneg (by linarith)]
      exact Nat.le_floor (by push_cast; linarith)
    rw [toPcm_of_finite hx, hneg]
    simp only [signed, sat16, clamp, Bool.false_eq_true, if_false]
    omega
  case bottom =>
    have hvalue : value x ≤ -1 := value_negate_one ▸ (le_iff_value hx rfl).mp hle
    have hneg : x.neg = true := by
      by_contra h
      have := value_nonneg (Bool.eq_false_of_not_eq_true h)
      linarith
    have hfloor : 2 ^ 15 ≤ ⌊|value x| * 2 ^ 15⌋₊ := by
      rw [abs_of_nonpos (by linarith)]
      exact Nat.le_floor (by push_cast; linarith)
    rw [toPcm_of_finite hx, hneg]
    simp only [signed, sat16, clamp, if_true]
    omega
  case small =>
    have hfloor : ⌊|value x| * 2 ^ 15⌋₊ = 0 := by
      rw [Nat.floor_eq_zero]
      have h : |value x * 32768| < 1 := abs_lt.mpr ⟨hlo, hhi⟩
      rw [abs_mul] at h
      norm_num at h ⊢
      exact h
    apply BitVec.eq_of_toInt_eq
    rw [toPcm_of_finite hx, hfloor]
    cases x.neg <;> rfl

/-- Over a power of two: the quotient's remainder is 0, so nothing is lost before the rounding. -/
theorem div_two_pow {x : Flt} (hx : x.isFinite = true) {e : Fin 2047} (he : e.val ≠ 0) : x.div (.fin false e 0) =
    Flt.round x.neg (x.sig * 2 ^ 58) (x.scale - (Flt.fin false e 0).scale - 110) false := by
  have hsig : (Flt.fin false e 0).sig = 2 ^ 52 := if_neg he
  have hshift : x.sig <<< 110 = x.sig * 2 ^ 58 * 2 ^ 52 := by rw [Nat.shiftLeft_eq]; ring
  cases x with
  | fin n e' f =>
    rw [Flt.div]
    simp only [hsig, hshift, Nat.mul_mod_left, Nat.mul_div_cancel _ (Nat.two_pow_pos 52)]
    rw [if_neg (Nat.two_pow_pos 52).ne', Bool.xor_false, bne_self_eq_false, Flt.neg]
  | nan | inf => simp [Flt.isFinite] at hx

theorem div_32768 {x : Flt} (hx : x.isFinite = true) :
    x.div (Flt.ofNat 32768) = Flt.round x.neg (x.sig * 2 ^ 58) (x.scale - 73) false := by
  have hconst : Flt.ofNat 32768 = .fin false 1038 0 := by decide +kernel
  have hscale : (Flt.fin false 1038 0).scale = -37 := rfl
  rw [hconst, div_two_pow hx (by decide), hscale,
    show x.scale - -37 - 110 = x.scale - 73 by ring]

/-- Settles O56: a sample over 32768 is a dyadic number of 16 bits, so the quotient is exact, and its product with
32768 is the sample again. -/
theorem sampleSurvivesAdapters : Obligations.SampleSurvivesAdapters := by
  intro v
  have hv := toInt_bounds v
  have hsmall : |v.toInt| ≤ 2 ^ 53 := abs_le.mpr ⟨by omega, by omega⟩
  obtain ⟨hfin, hint⟩ := ofInt_exact hsmall
  have hdiv : ofPcm v = Flt.round (Flt.ofInt v.toInt).neg ((Flt.ofInt v.toInt).sig * 2 ^ 58)
      ((Flt.ofInt v.toInt).scale - 73) false := by
    rw [ofPcm, machine_num, numerics_ofS16, div_32768 hfin]
  have hround : IsRounded ((v.toInt : ℚ) / 32768) (ofPcm v) := by
    have h := round_isRounded (Flt.ofInt v.toInt).neg ((Flt.ofInt v.toInt).sig * 2 ^ 58)
      ((Flt.ofInt v.toInt).scale - 73)
    rw [← hdiv] at h
    convert h using 1
    rw [← hint, value_eq_sig hfin, signed_cast, signed_cast, sub_eq_add_neg, zpow_add₀ (by norm_num)]
    push_cast
    norm_num
    ring
  obtain ⟨w, hw, hvalue⟩ := exists_value (k := -15) hsmall (by norm_num) (by norm_num)
  obtain ⟨hfin', hexact⟩ := exact_of_isRounded hround hw (by rw [hvalue]; norm_num; ring)
  refine ⟨BitVec.eq_of_toInt_eq ?_, hexact⟩
  have hneg : (ofPcm v).neg = decide (v.toInt < 0) := by rw [hdiv, round_neg, ofInt_neg]
  have habs : |value (ofPcm v)| * 2 ^ 15 = (v.toInt.natAbs : ℚ) := by
    rw [hexact, abs_div, Nat.cast_natAbs, Int.cast_abs]
    norm_num
  rw [toPcm_of_finite hfin', hneg, habs, Nat.floor_natCast, signed_decide_natAbs, sat16_of_mem _ hv.1 hv.2]

/-! ## Differences -/

theorem isFinite_negate {x : Flt} (hx : x.isFinite = true) : x.negate.isFinite = true := by
  cases x with
  | fin n e f => rfl
  | nan | inf => simp [Flt.isFinite] at hx

theorem value_negate (x : Flt) : value x.negate = -value x := by
  cases x with
  | fin n e f =>
    have hneg : (Flt.fin (!n) e f).neg = !n := rfl
    have hsame : pattern (.fin (!n) e f) = pattern (.fin n e f) := by rw [pattern_fin, pattern_fin]
    rw [Flt.negate, value_eq rfl, value_eq rfl, hsame, hneg]
    cases n <;> simp [sgn, Flt.neg]
  | nan | inf => simp [value, Flt.negate]

theorem sub_isRounded {x y : Flt} (hx : x.isFinite = true) (hy : y.isFinite = true) :
    IsRounded (value x - value y) (x.sub y) := by
  have h := add_isRounded hx (isFinite_negate hy)
  rwa [value_negate, ← sub_eq_add_neg] at h

theorem sig_lt (x : Flt) : x.sig < 2 ^ 53 := by
  cases x with
  | fin n e f => have := f.isLt; simp only [Flt.sig]; split <;> omega
  | nan | inf => simp [Flt.sig]

theorem scale_ge (x : Flt) : -1074 ≤ x.scale := by
  cases x with
  | fin n e f => simp only [Flt.scale]; omega
  | nan | inf => simp [Flt.scale]

/-- The fraction of a position is exact: it has no more bits than the position. -/
theorem sub_floor_exact {p : Flt} {i : Nat} (hp : p.isFinite = true) (hi : i < 2 ^ 53) (hlo : (i : ℚ) ≤ value p)
    (hhi : value p < i + 1) :
    (p.sub (Flt.ofNat i)).isFinite = true ∧ value (p.sub (Flt.ofNat i)) = value p - i := by
  obtain ⟨hfin, hvalue⟩ := ofNat_exact (n := i) hi.le
  have hround := sub_isRounded hp hfin
  rw [hvalue] at hround
  have hsig := sig_lt p
  have hscale := scale_ge p
  rw [value_eq_sig hp] at hlo hhi hround ⊢
  rcases Int.lt_or_le p.scale 0 with hneg | hpos
  · obtain ⟨j, hj⟩ := Int.eq_ofNat_of_zero_le (a := -p.scale) (by omega)
    have hj' : p.scale = -(j : ℤ) := by omega
    have hpow : (0 : ℚ) < 2 ^ j := by positivity
    rw [hj', zpow_neg, zpow_natCast, ← div_eq_mul_inv] at hlo hhi hround ⊢
    have hlo' : (i : ℤ) * 2 ^ j ≤ signed p.neg p.sig := by
      rw [le_div_iff₀ hpow] at hlo; exact_mod_cast hlo
    have hle : signed p.neg p.sig ≤ p.sig := by cases p.neg <;> simp [signed]
    have hm : |signed p.neg p.sig - i * 2 ^ j| ≤ (2 : ℤ) ^ 53 := by
      have hnonneg : (0 : ℤ) ≤ i * 2 ^ j := by positivity
      exact abs_le.mpr ⟨by omega, by omega⟩
    obtain ⟨w, hw, hwv⟩ := exists_value (k := -(j : ℤ)) hm (by omega) (by omega)
    refine exact_of_isRounded hround hw ?_
    rw [hwv, zpow_neg, zpow_natCast, ← div_eq_mul_inv]
    push_cast
    field_simp
  · obtain ⟨j, hj⟩ := Int.eq_ofNat_of_zero_le hpos
    have hint : (signed p.neg p.sig : ℚ) * 2 ^ p.scale = i := by
      rw [hj, zpow_natCast] at hlo hhi ⊢
      have h1 : (i : ℤ) ≤ signed p.neg p.sig * 2 ^ j := by exact_mod_cast hlo
      have h2 : signed p.neg p.sig * 2 ^ j < (i : ℤ) + 1 := by exact_mod_cast hhi
      exact_mod_cast (by omega : signed p.neg p.sig * 2 ^ j = (i : ℤ))
    rw [hint, sub_self] at hround ⊢
    exact exact_of_isRounded hround (w := .zero) rfl value_zero

/-! ## Interpolation of a table of bytes -/

/-- An entry of a table of bytes as FLT, 0 beyond the table on both sides. -/
theorem tabAt_map_byteToF (t : List Byte) (i : Nat) :
    tabAt (t.map (byteToF Config.machine)) i = Flt.ofNat (t.getD i 0).toNat := by
  rcases Nat.lt_or_ge i t.length with h | h
  · simp [tabAt, byteToF, h]
  · simp [tabAt, h]

theorem byte_exact (b : Byte) : (Flt.ofNat b.toNat).isFinite = true ∧ value (Flt.ofNat b.toNat) = b.toNat := by
  have := b.isLt
  exact ofNat_exact (by omega)

/-- The interpolation at a position between entry `i` and the next. -/
theorem interp_eq (t : List Byte) {p : Flt} {i : Nat} (hp : p.isFinite = true) (hi : i < 2 ^ 53)
    (hlo : (i : ℚ) ≤ value p) (hhi : value p < i + 1) :
    interp Config.machine (t.map (byteToF Config.machine)) p =
      (Flt.ofNat (t.getD i 0).toNat).add (((Flt.ofNat (t.getD ((i + 1) % t.length) 0).toNat).sub
        (Flt.ofNat (t.getD i 0).toNat)).mul (p.sub (Flt.ofNat i))) := by
  have hfloor : ⌊value p⌋ = (i : ℤ) := Int.floor_eq_iff.mpr ⟨by exact_mod_cast hlo, by exact_mod_cast hhi⟩
  have hindex : p.floor.floorInt = i := by
    rw [floor_floorInt hp (by rw [hfloor, Nat.abs_cast]; exact_mod_cast hi.le), hfloor]
  simp only [interp, machine_num, numerics_floorInt, numerics_ofNat, numerics_add, numerics_sub, numerics_mul, hindex,
    Int.toNat_natCast, List.length_map, tabAt_map_byteToF]

/-- The difference of two bytes is exact. -/
theorem byte_sub_exact (a b : Byte) : ((Flt.ofNat b.toNat).sub (Flt.ofNat a.toNat)).isFinite = true ∧
    value ((Flt.ofNat b.toNat).sub (Flt.ofNat a.toNat)) = (b.toNat : ℚ) - a.toNat := by
  obtain ⟨ha, hav⟩ := byte_exact a
  obtain ⟨hb, hbv⟩ := byte_exact b
  have hround := sub_isRounded hb ha
  rw [hav, hbv] at hround
  have := a.isLt
  have := b.isLt
  obtain ⟨w, hw, hwv⟩ := exists_value (m := (b.toNat : ℤ) - a.toNat) (k := 0) (abs_le.mpr ⟨by omega, by omega⟩)
    (by norm_num) (by norm_num)
  exact exact_of_isRounded hround hw (by rw [hwv]; push_cast; ring)

/-- A byte plus a product that is 0 is the byte. -/
theorem byte_add_zero (a : Byte) {z : Flt} (hz : z.isFinite = true) (hzv : value z = 0) :
    (Flt.ofNat a.toNat).add z = Flt.ofNat a.toNat := by
  obtain ⟨ha, hav⟩ := byte_exact a
  by_cases h : value (Flt.ofNat a.toNat) = 0
  · have hbyte : a.toNat = 0 := by rw [hav] at h; exact_mod_cast h
    rw [add_of_sum_zero ha hz (by rw [h, hzv, add_zero]), ofNat_neg, hbyte]
    rfl
  · obtain ⟨hfin, hvalue⟩ := exact_of_isRounded (add_isRounded ha hz) ha (by rw [hzv, add_zero])
    rw [hzv, add_zero] at hvalue
    exact eq_of_value_ne_zero hfin ha hvalue (hvalue ▸ h)

/-- A product with a number that is 0 is 0. -/
theorem mul_zero_exact {x y : Flt} (hx : x.isFinite = true) (hy : y.isFinite = true) (h : value y = 0) :
    (x.mul y).isFinite = true ∧ value (x.mul y) = 0 := by
  have hround := mul_isRounded hx hy
  rw [h, mul_zero] at hround
  exact exact_of_isRounded hround (w := .zero) rfl value_zero

theorem interp_at_entry (t : List Byte) {i : Nat} (hi : i < 2 ^ 53) :
    interp Config.machine (t.map (byteToF Config.machine)) (Flt.ofNat i) = Flt.ofNat (t.getD i 0).toNat := by
  obtain ⟨hfin, hvalue⟩ := ofNat_exact (n := i) hi.le
  have hlo : (i : ℚ) ≤ value (Flt.ofNat i) := hvalue.ge
  have hhi : value (Flt.ofNat i) < i + 1 := by rw [hvalue]; linarith
  obtain ⟨hfrac, hfracv⟩ := sub_floor_exact hfin hi hlo hhi
  rw [hvalue, sub_self] at hfracv
  obtain ⟨hprod, hprodv⟩ := mul_zero_exact (byte_sub_exact (t.getD i 0) (t.getD ((i + 1) % t.length) 0)).1 hfrac hfracv
  rw [interp_eq t hfin hi hlo hhi, byte_add_zero _ hprod hprodv]

/-- A sum with a product rounds twice, each time by at most 2^-44 where the numbers are of a byte's size. -/
theorem add_mul_near {x d f : Flt} (hx : x.isFinite = true) (hd : d.isFinite = true) (hf : f.isFinite = true)
    (hxSize : |value x| ≤ 255) (hSize : |value d * value f| ≤ 255) :
    |value (x.add (d.mul f)) - (value x + value d * value f)| ≤ 1 / 2 ^ 40 := by
  have hfirst := near_of_isRounded (mul_isRounded hd hf) (hSize.trans (by norm_num))
  have hε1 : (1 : ℚ) / 2 ^ 44 ≤ 1 := by norm_num
  have hε2 : (1 : ℚ) / 2 ^ 44 + 1 / 2 ^ 44 ≤ 1 / 2 ^ 40 := by norm_num
  obtain ⟨hprod, hprodNear⟩ := hfirst
  obtain ⟨h1, h2⟩ := abs_le.mp hxSize
  obtain ⟨h3, h4⟩ := abs_le.mp hSize
  obtain ⟨h5, h6⟩ := abs_le.mp hprodNear
  have hsumSize : |value x + value (d.mul f)| ≤ 2 ^ 9 := abs_le.mpr ⟨by linarith, by linarith⟩
  obtain ⟨_, hsumNear⟩ := near_of_isRounded (add_isRounded hx hprod) hsumSize
  obtain ⟨h7, h8⟩ := abs_le.mp hsumNear
  exact abs_le.mpr ⟨by linarith, by linarith⟩

theorem byte_le (b : Byte) : (b.toNat : ℚ) ≤ 255 := by
  have := b.isLt; exact_mod_cast (by omega : b.toNat ≤ 255)

theorem abs_byte_sub_le (a b : Byte) : |(b.toNat : ℚ) - a.toNat| ≤ 255 := by
  have ha0 : (0 : ℚ) ≤ a.toNat := Nat.cast_nonneg _
  have hb0 : (0 : ℚ) ≤ b.toNat := Nat.cast_nonneg _
  exact abs_le.mpr ⟨by linarith [byte_le a], by linarith [byte_le b]⟩

theorem interp_near_line (t : List Byte) {p : Flt} {i : Nat} (hp : p.isFinite = true) (hi : i < 2 ^ 53)
    (hlo : (i : ℚ) ≤ value p) (hhi : value p < i + 1) :
    |value (interp Config.machine (t.map (byteToF Config.machine)) p) - (((t.getD i 0).toNat : ℚ) +
      (((t.getD ((i + 1) % t.length) 0).toNat : ℚ) - (t.getD i 0).toNat) * (value p - i))| ≤ 1 / 2 ^ 40 := by
  rw [interp_eq t hp hi hlo hhi]
  generalize t.getD i 0 = a
  generalize t.getD ((i + 1) % t.length) 0 = b
  obtain ⟨ha, hav⟩ := byte_exact a
  obtain ⟨hdiff, hdiffv⟩ := byte_sub_exact a b
  obtain ⟨hfrac, hfracv⟩ := sub_floor_exact hp hi hlo hhi
  have ha255 : |value (Flt.ofNat a.toNat)| ≤ 255 := by rw [hav, Nat.abs_cast]; exact byte_le a
  have hsize : |value ((Flt.ofNat b.toNat).sub (Flt.ofNat a.toNat)) * value (p.sub (Flt.ofNat i))| ≤ 255 := by
    rw [hdiffv, hfracv, abs_mul]
    have hunit : |value p - i| ≤ 1 := abs_le.mpr ⟨by linarith, by linarith⟩
    calc |(b.toNat : ℚ) - a.toNat| * |value p - i|
        ≤ 255 * 1 := mul_le_mul (abs_byte_sub_le a b) hunit (abs_nonneg _) (by norm_num)
      _ = 255 := mul_one _
  have h := add_mul_near ha hdiff hfrac ha255 hsize
  rwa [hav, hdiffv, hfracv] at h

/-- Settles O35. Near the end of the table the line to the first entry is followed almost to its end. -/
theorem interpAtEntry : Obligations.InterpAtEntry := by
  intro t at' entry
  refine ⟨fun i _ hi => interp_at_entry t hi, fun p i hp _ hi hlo hhi => interp_near_line t hp hi hlo hhi,
    fun p hp hlen hsize hlo hhi => ?_⟩
  obtain ⟨n, hn⟩ : ∃ n, t.length = n + 1 := ⟨t.length - 1, by omega⟩
  rw [hn] at hlo hhi hsize
  push_cast at hlo hhi
  have hline := interp_near_line t (i := n) hp (by omega) (by linarith) (by linarith)
  rw [hn, Nat.mod_self] at hline
  have hrest : |entry n + (entry 0 - entry n) * (value p - n) - entry 0| ≤ 255 * (n + 1 - value p) := by
    have hfactor : entry n + (entry 0 - entry n) * (value p - n) - entry 0 = (entry n - entry 0) * (n + 1 - value p) := by
      ring
    rw [hfactor, abs_mul, abs_of_nonneg (by linarith : (0 : ℚ) ≤ n + 1 - value p)]
    exact mul_le_mul_of_nonneg_right (abs_byte_sub_le (t.getD 0 0) (t.getD n 0)) (by linarith)
  rw [hn]
  push_cast
  calc |value (at' p) - entry 0|
      ≤ |value (at' p) - (entry n + (entry 0 - entry n) * (value p - n))| +
        |entry n + (entry 0 - entry n) * (value p - n) - entry 0| := abs_sub_le _ _ _
    _ ≤ 1 / 2 ^ 40 + 255 * (n + 1 - value p) := add_le_add hline hrest
    _ = 255 * (n + 1 - value p) + 1 / 2 ^ 40 := add_comm _ _

end Sys2Proof.Numeric
end

section
/-! The ADPCM decoder and the decode cache (40_adpcm.md rules R130 to R137): how many blocks a decode reads, the loop data
it puts out, the recurrence of its samples across blocks, and what a fetch does to the cache. -/

open Sys2Proof Sys2Proof.Machine Sys2Proof.Spec

namespace Sys2Proof.Adpcm

/-! ## The blocks a decode reads -/

/-- The decoder behind the first `m` blocks of a buffer, end flags not looked at. -/
def afterBlocks (buf : List Byte) : Nat → DecoderState
  | 0 => .start
  | m + 1 => decodeBlock Config.machine (buf.drop (16 * m)) (afterBlocks buf m)

theorem flags_drop (buf : List Byte) (b : Nat) : srcByte (buf.drop (16 * b)) 1 = blockFlags buf b :=
  Encoding.srcByte_drop buf (16 * b) 1

theorem header_drop (buf : List Byte) (b : Nat) : srcByte (buf.drop (16 * b)) 0 = blockHeader buf b :=
  Encoding.srcByte_drop buf (16 * b) 0

theorem afterBlocks_ended (buf : List Byte) (m : Nat) :
    (afterBlocks buf (m + 1)).ended = flagEnd (blockFlags buf m) := by
  rw [← flags_drop]; rfl

/-- `m` is the number of blocks a decode of up to `n` more reads from block `k` on: none behind an end flag. -/
structure Stops (buf : List Byte) (k n m : Nat) : Prop where
  lower : k ≤ m
  upper : m ≤ k + n
  before : ∀ b, k ≤ b → b + 1 < m → flagEnd (blockFlags buf b) = false
  ended : m < k + n → k < m ∧ flagEnd (blockFlags buf (m - 1)) = true

theorem decodeBlocks_eq (buf : List Byte) (n : Nat) : ∀ k, ∃ m, Stops buf k n m ∧
    decodeBlocks Config.machine n (buf.drop (16 * k)) (afterBlocks buf k) = afterBlocks buf m := by
  induction n with
  | zero => exact fun k => ⟨k, ⟨le_rfl, by omega, fun b _ _ => by omega, fun h => by omega⟩, rfl⟩
  | succ n ih =>
    intro k
    have hstep : decodeBlock Config.machine (buf.drop (16 * k)) (afterBlocks buf k) = afterBlocks buf (k + 1) := rfl
    rw [decodeBlocks, hstep, afterBlocks_ended, machine_adpcmBlockBytes, List.drop_drop]
    cases hend : flagEnd (blockFlags buf k) with
    | true =>
      exact ⟨k + 1, ⟨by omega, by omega, fun b _ _ => by omega, fun _ => ⟨by omega, hend⟩⟩, if_pos rfl⟩
    | false =>
      obtain ⟨m, hm, heq⟩ := ih (k + 1)
      have hlower := hm.lower
      have hupper := hm.upper
      refine ⟨m, ⟨by omega, by omega, fun b hb hbm => ?_, fun h => ⟨by omega, (hm.ended (by omega)).2⟩⟩, ?_⟩
      · rcases Nat.eq_or_lt_of_le hb with rfl | hlt
        · exact hend
        · exact hm.before b hlt hbm
      · rw [if_neg (by decide), ← heq]
        rfl

/-- A decode reads some number `m` of blocks and puts out the decoder's data behind them. -/
theorem adpcmDecode_eq (buf : List Byte) : ∃ m, Stops buf 0 (wholeBlocks buf) m ∧
    adpcmDecode Config.machine buf =
      { pcm := (afterBlocks buf m).pcm
        loopStart := (afterBlocks buf m).loopStart
        loopEnd := (afterBlocks buf m).pcm.length
        looping := (afterBlocks buf m).looping } := by
  obtain ⟨m, hm, heq⟩ := decodeBlocks_eq buf (wholeBlocks buf) 0
  refine ⟨m, hm, ?_⟩
  rw [← heq]
  rfl

/-! ## Length and loop data (rules R133 and R134) -/

theorem afterBlocks_length (buf : List Byte) (m : Nat) : (afterBlocks buf m).pcm.length = 28 * m := by
  induction m with
  | zero => rfl
  | succ m ih => rw [afterBlocks, decodeBlock_pcm_length, ih, machine_adpcmBlockSamples]; ring

theorem afterBlocks_looping_succ (buf : List Byte) (m : Nat) : (afterBlocks buf (m + 1)).looping =
    ((afterBlocks buf m).looping || (flagEnd (blockFlags buf m) && flagLoopEn (blockFlags buf m))) := by
  rw [← flags_drop]; rfl

theorem afterBlocks_loopStart_succ (buf : List Byte) (m : Nat) : (afterBlocks buf (m + 1)).loopStart =
    if flagLoopStart (blockFlags buf m) then 28 * m else (afterBlocks buf m).loopStart := by
  rw [← afterBlocks_length buf m, ← flags_drop]
  simp [afterBlocks, decodeBlock, loopStartAfter]

/-- Without an end flag no block makes the sample loop. -/
theorem afterBlocks_not_looping (buf : List Byte) (m : Nat) (h : ∀ b, b < m → flagEnd (blockFlags buf b) = false) :
    (afterBlocks buf m).looping = false := by
  induction m with
  | zero => rfl
  | succ m ih => rw [afterBlocks_looping_succ, ih fun b hb => h b (by omega), h m (by omega)]; rfl

theorem afterBlocks_looping (buf : List Byte) (m : Nat)
    (h : ∀ b, b + 1 < m → flagEnd (blockFlags buf b) = false) : (afterBlocks buf m).looping =
    (decide (0 < m) && flagEnd (blockFlags buf (m - 1)) && flagLoopEn (blockFlags buf (m - 1))) := by
  cases m with
  | zero => rfl
  | succ m => rw [afterBlocks_looping_succ, afterBlocks_not_looping buf m fun b hb => h b (by omega)]; simp

theorem afterBlocks_loopStart_none (buf : List Byte) (m : Nat)
    (h : ∀ b, b < m → flagLoopStart (blockFlags buf b) = false) : (afterBlocks buf m).loopStart = 0 := by
  induction m with
  | zero => rfl
  | succ m ih =>
    rw [afterBlocks_loopStart_succ, h m (by omega), if_neg (by decide)]
    exact ih fun b hb => h b (by omega)

theorem afterBlocks_loopStart_last (buf : List Byte) (m b : Nat) (hb : b < m)
    (hflag : flagLoopStart (blockFlags buf b) = true)
    (hlast : ∀ c, b < c → c < m → flagLoopStart (blockFlags buf c) = false) : (afterBlocks buf m).loopStart = 28 * b := by
  induction m with
  | zero => omega
  | succ m ih =>
    rw [afterBlocks_loopStart_succ]
    rcases Nat.eq_or_lt_of_le (Nat.le_of_lt_succ hb) with rfl | hlt
    · rw [hflag, if_pos rfl]
    · rw [hlast m hlt (by omega), if_neg (by decide)]
      exact ih hlt fun c hc hcm => hlast c hc (by omega)

/-- Settles O14. -/
theorem adpcmDecodeBlocks : Obligations.AdpcmDecodeBlocks := by
  intro s
  obtain ⟨m, hm, heq⟩ := adpcmDecode_eq s.ports.buf
  have hopen : ∀ b, b + 1 < m → flagEnd (blockFlags s.ports.buf b) = false := fun b => hm.before b (Nat.zero_le b)
  refine ⟨adpcmDecode Config.machine s.ports.buf, m, rfl, ?_⟩
  rw [heq]
  exact ⟨by simpa using hm.upper, hopen, fun h => hm.ended (by omega), afterBlocks_length _ _, afterBlocks_length _ _,
    afterBlocks_looping _ m hopen, afterBlocks_loopStart_none _ m, fun b => afterBlocks_loopStart_last _ m b⟩

/-! ## The recurrence (rules R130 to R132) -/

/-- The output `k` places before place `i`, 0 before the first. -/
def hist (pcm : List S16) (i k : Nat) : S16 := if k ≤ i then pcm.getD (i - k) 0 else 0

/-- What stands before the end of a list does not change when samples are added. -/
theorem getD_append_of_lt {pcm : List S16} (more : List S16) {i : Nat} (hi : i < pcm.length) :
    (pcm ++ more).getD i 0 = pcm.getD i 0 := by
  simp [List.getElem?_append_left hi]

theorem hist_append {pcm : List S16} (more : List S16) {i k : Nat} (hi : i ≤ pcm.length) (hk : 1 ≤ k) :
    hist (pcm ++ more) i k = hist pcm i k := by
  unfold hist
  split
  · exact getD_append_of_lt more (by omega)
  · rfl

/-- One nibble after the samples `l`: the new sample is the last output, the former last the one before. -/
theorem hist_concat (l : List S16) (x : S16) :
    hist (l ++ [x]) (l.length + 1) 1 = x ∧ hist (l ++ [x]) (l.length + 1) 2 = hist l l.length 1 := by
  refine ⟨by simp [hist], ?_⟩
  unfold hist
  rcases Nat.eq_zero_or_pos l.length with h | h
  · rw [if_neg (by omega), if_neg (by omega)]
  · rw [if_pos (by omega), if_pos (by omega)]
    exact getD_append_of_lt [x] (by omega)

/-- The nibbles of a block after the samples `l` of the blocks before it: each new sample is `ADPCM.NIB` of its nibble
and the two outputs before it, and the history carried on is the last two outputs. -/
theorem adpcmNibbles_spec (blk : List Byte) (sh : ℤ) (f : Fin 5) (k : Nat) : ∀ (j : Nat) (l : List S16),
    ∃ out, adpcmNibbles Config.machine blk sh f k j (hist l l.length 1) (hist l l.length 2) =
      (out, hist (l ++ out) (l.length + k) 1, hist (l ++ out) (l.length + k) 2) ∧ out.length = k ∧
      ∀ i, i < k → (l ++ out).getD (l.length + i) 0 = adpcmNib Config.machine (adpcmNibble blk (j + i)) sh f
        (hist (l ++ out) (l.length + i) 1) (hist (l ++ out) (l.length + i) 2) := by
  induction k with
  | zero => exact fun j l => ⟨[], by simp [adpcmNibbles], rfl, fun i hi => by omega⟩
  | succ k ih =>
    intro j l
    obtain ⟨x, hx⟩ : ∃ x, x = adpcmNib Config.machine (adpcmNibble blk j) sh f (hist l l.length 1) (hist l l.length 2) :=
      ⟨_, rfl⟩
    obtain ⟨hlast, hbefore⟩ := hist_concat l x
    obtain ⟨out, hout, hlen, hrule⟩ := ih (j + 1) (l ++ [x])
    have hlist : l ++ [x] ++ out = l ++ x :: out := by simp
    have hsize : (l ++ [x]).length = l.length + 1 := by simp
    rw [hlist, hsize] at hout hrule
    rw [hlast, hbefore] at hout
    refine ⟨x :: out, ?_, by simp [hlen], fun i hi => ?_⟩
    · rw [adpcmNibbles, ← hx, hout, Nat.add_right_comm, Nat.add_assoc]
    · rcases Nat.eq_zero_or_pos i with rfl | hpos
      · rw [Nat.add_zero, Nat.add_zero, hist_append _ le_rfl le_rfl, hist_append _ le_rfl (by decide), ← hx]
        simp
      · have h := hrule (i - 1) (by omega)
        rwa [show l.length + 1 + (i - 1) = l.length + i by omega, show j + 1 + (i - 1) = j + i by omega] at h

/-- The sample at place `i` by its block's header, its nibble and the two outputs before it. -/
def sampleRule (buf : List Byte) (pcm : List S16) (i : Nat) : S16 :=
  adpcmNib Config.machine (adpcmNibble (buf.drop (16 * (i / 28))) (i % 28))
    (adpcmShift Config.machine (hdrShiftCode (blockHeader buf (i / 28))))
    (adpcmFilter (hdrFilterCode (blockHeader buf (i / 28)))) (hist pcm i 1) (hist pcm i 2)

/-- The history a block starts from is the last two outputs, and every sample follows the rule. -/
theorem afterBlocks_samples (buf : List Byte) (m : Nat) :
    (afterBlocks buf m).h1 = hist (afterBlocks buf m).pcm (28 * m) 1 ∧
    (afterBlocks buf m).h2 = hist (afterBlocks buf m).pcm (28 * m) 2 ∧
    ∀ i, i < 28 * m → (afterBlocks buf m).pcm.getD i 0 = sampleRule buf (afterBlocks buf m).pcm i := by
  induction m with
  | zero => exact ⟨rfl, rfl, fun i hi => by omega⟩
  | succ m ih =>
    obtain ⟨h1, h2, hrule⟩ := ih
    have hlen := afterBlocks_length buf m
    obtain ⟨out, hout, hout28, hnew⟩ := adpcmNibbles_spec (buf.drop (16 * m))
      (adpcmShift Config.machine (hdrShiftCode (blockHeader buf m))) (adpcmFilter (hdrFilterCode (blockHeader buf m))) 28 0
      (afterBlocks buf m).pcm
    rw [hlen] at hout hnew
    rw [← h1, ← h2] at hout
    have hblock : adpcmBlock Config.machine (buf.drop (16 * m)) (afterBlocks buf m).h1 (afterBlocks buf m).h2 =
        (out, hist ((afterBlocks buf m).pcm ++ out) (28 * m + 28) 1,
          hist ((afterBlocks buf m).pcm ++ out) (28 * m + 28) 2) := by
      rw [adpcmBlock, header_drop]; exact hout
    have hpcm : (afterBlocks buf (m + 1)).pcm = (afterBlocks buf m).pcm ++ out := by
      rw [afterBlocks, decodeBlock, hblock]
    have hh1 : (afterBlocks buf (m + 1)).h1 = hist ((afterBlocks buf m).pcm ++ out) (28 * m + 28) 1 := by
      rw [afterBlocks, decodeBlock, hblock]
    have hh2 : (afterBlocks buf (m + 1)).h2 = hist ((afterBlocks buf m).pcm ++ out) (28 * m + 28) 2 := by
      rw [afterBlocks, decodeBlock, hblock]
    rw [hpcm]
    refine ⟨hh1, hh2, fun i hi => ?_⟩
    rcases Nat.lt_or_ge i (28 * m) with hold | hge
    · rw [getD_append_of_lt out (by omega), hrule i hold, sampleRule, sampleRule, hist_append out (by omega) le_rfl,
        hist_append out (by omega) (by decide)]
    · have h := hnew (i - 28 * m) (by omega)
      rw [show 28 * m + (i - 28 * m) = i by omega, Nat.zero_add] at h
      rw [h, sampleRule, show i / 28 = m by omega, show i % 28 = i - 28 * m by omega]

/-! ### The rule by the spec's formulas -/

theorem shiftNibble_eq (t : ℤ) (code : BitVec 4) :
    shiftNibble t (adpcmShift Config.machine code) = shifted t code.toNat := by
  have hcode := code.isLt
  have hshift : adpcmShift Config.machine code = 12 - (code.toNat : ℤ) := by simp [adpcmShift]
  rw [hshift, shiftNibble, shifted]
  rcases Nat.lt_or_ge 12 code.toNat with h | h
  · rw [if_neg (by omega), if_neg (by omega), asr]
    congr 2
    omega
  · rw [if_pos (by omega), if_pos h, shl]
    congr 2
    omega

theorem predict_eq (code : BitVec 4) (h1 h2 : S16) :
    predict Config.machine (adpcmFilter code) h1 h2 = predicted code.toNat h1.toInt h2.toInt := by
  have hpred (f : Fin 5) : predict Config.machine f h1 h2 =
      (h1.toInt * [0, 60, 115, 98, 122].getD f.val 0 + h2.toInt * [0, 0, -52, -55, -60].getD f.val 0 + 32) / 64 := by
    fin_cases f <;> rfl
  have hfilter : (adpcmFilter code).val = if code.toNat ≤ 4 then code.toNat else 0 := by
    unfold adpcmFilter
    split
    · rw [if_pos (by omega)]
    · rw [if_neg (by omega)]; rfl
  rw [hpred, hfilter, predicted]

theorem hdrShiftCode_toNat (b : Byte) : (hdrShiftCode b).toNat = b.toNat % 16 := by
  rw [hdrShiftCode, Encoding.extract_toNat]; omega

theorem hdrFilterCode_toNat (b : Byte) : (hdrFilterCode b).toNat = b.toNat / 16 := by
  have := b.isLt
  rw [hdrFilterCode, Encoding.extract_toNat]; omega

theorem hist_toInt (pcm : List S16) (i k : Nat) :
    (hist pcm i k).toInt = if k ≤ i then (pcm.getD (i - k) 0).toInt else 0 := by
  unfold hist; split <;> rfl

theorem sampleRule_toInt (buf : List Byte) (pcm : List S16) (i : Nat) :
    (sampleRule buf pcm i).toInt = max (-32768) (min 32767
      (shifted (nibble buf (i / 28) (i % 28)) ((blockHeader buf (i / 28)).toNat % 16) +
        predicted ((blockHeader buf (i / 28)).toNat / 16)
          (if 1 ≤ i then (pcm.getD (i - 1) 0).toInt else 0) (if 2 ≤ i then (pcm.getD (i - 2) 0).toInt else 0))) := by
  rw [sampleRule, adpcmNib, toS16_toInt, shiftNibble_eq, predict_eq, hdrShiftCode_toNat, hdrFilterCode_toNat, hist_toInt,
    hist_toInt, Encoding.nibbleValues buf _ _ (Nat.mod_lt i (by decide))]
  rfl

/-- Settles O15. -/
theorem adpcmSampleRecurrence : Obligations.AdpcmSampleRecurrence := by
  intro s d h i hi
  have hd : d = adpcmDecode Config.machine s.ports.buf := by
    have heq : exec .adpcmDecode s =
      .next { s with result := .decoded (adpcmDecode Config.machine s.ports.buf) } := rfl
    have hresult := congrArg State.result (Host.Outcome.next.inj (h.symm.trans heq))
    exact Result.decoded.inj hresult
  obtain ⟨m, _, heq⟩ := adpcmDecode_eq s.ports.buf
  rw [hd, heq] at hi ⊢
  have hrule := (afterBlocks_samples s.ports.buf m).2.2 i (by simpa [afterBlocks_length] using hi)
  exact (congrArg BitVec.toInt hrule).trans (sampleRule_toInt _ _ _)

/-! ## The decode cache (rules R23 and R137) -/

/-- The sample a fetch of an offset binds where there is none. -/
def decodedAt (src : SMap (List Byte)) (o : Nat) : DecodedSample := adpcmDecode Config.machine (fetchSrc src o)

theorem find_adpcmFetch (src : SMap (List Byte)) {c : SMap DecodedSample} (hc : SMap.wf c) (o p : Nat) :
    SMap.find (adpcmFetch Config.machine src c o) p =
      if p = o then some ((SMap.find c o).getD (decodedAt src o)) else SMap.find c p := by
  rcases adpcmFetch_cases Config.machine src c o with ⟨hbound, heq⟩ | ⟨hnone, heq⟩
  · rw [heq]
    split
    · next hp =>
      obtain ⟨d, hd⟩ := Option.isSome_iff_exists.mp hbound
      rw [hp, hd]; rfl
    · rfl
  · rw [heq, SMap.find_put _ _ _ _ hc, hnone]
    rfl

/-- Settles O16. -/
theorem adpcmFetchResult : Obligations.AdpcmFetchResult := by
  intro s hwf
  refine ⟨adpcmFetch Config.machine s.src s.cache s.ports.offset, rfl, adpcmFetch_wf _ _ _ _ hwf, ?_, fun o ho => ?_⟩
  · rw [find_adpcmFetch _ hwf, if_pos rfl]; rfl
  · rw [find_adpcmFetch _ hwf, if_neg ho]

/-- The cache after the Tones of a note-on, one after the other (rule R270). -/
theorem addVoices_cache (cfg : Config) (src : SMap (List Byte)) (b : SMap BreathTable) (k : Nat) (c : ChannelState)
    (key vel : U7) (p : Program) (ts : List Tone) : ∀ (m : SMap DecodedSample) (vs : List Voice),
    (addVoices cfg src b k c key vel p ts m vs).1 = ts.foldl (newVoiceCache cfg src) m := by
  induction ts with
  | nil => exact fun m vs => rfl
  | cons t ts ih => exact fun m vs => ih _ _

theorem newVoiceCache_wf (src : SMap (List Byte)) {c : SMap DecodedSample} (hc : SMap.wf c) (t : Tone) :
    SMap.wf (newVoiceCache Config.machine src c t) := by
  unfold newVoiceCache
  split
  · exact hc
  · exact adpcmFetch_wf _ _ _ _ hc

/-- An offset that one of the Tones fetches. -/
def Fetches (ts : List Tone) (o : Nat) : Prop := ∃ t ∈ ts, t.noise = false ∧ t.sampleOffset = o

theorem foldl_newVoiceCache_wf (src : SMap (List Byte)) (ts : List Tone) : ∀ {c : SMap DecodedSample}, SMap.wf c →
    SMap.wf (ts.foldl (newVoiceCache Config.machine src) c) := by
  induction ts with
  | nil => exact fun hc => hc
  | cons t ts ih => exact fun hc => ih (newVoiceCache_wf src hc t)

/-- A fetched offset keeps its entry or gets the decode of the host's bytes, every other is as before. -/
theorem find_foldl_newVoiceCache (src : SMap (List Byte)) (ts : List Tone) (o : Nat) : ∀ {c : SMap DecodedSample},
    SMap.wf c → (Fetches ts o → SMap.find (ts.foldl (newVoiceCache Config.machine src) c) o =
        some ((SMap.find c o).getD (decodedAt src o))) ∧
      (¬ Fetches ts o → SMap.find (ts.foldl (newVoiceCache Config.machine src) c) o = SMap.find c o) := by
  induction ts with
  | nil => exact fun _ => ⟨fun ⟨t, ht, _⟩ => (nomatch ht), fun _ => rfl⟩
  | cons t ts ih =>
    intro c hc
    obtain ⟨hin, hout⟩ := ih (newVoiceCache_wf src hc t)
    rw [List.foldl_cons]
    by_cases hhead : t.noise = false ∧ t.sampleOffset = o
    · obtain ⟨hnoise, rfl⟩ := hhead
      have hfind : SMap.find (newVoiceCache Config.machine src c t) t.sampleOffset =
          some ((SMap.find c t.sampleOffset).getD (decodedAt src t.sampleOffset)) := by
        rw [newVoiceCache, hnoise, if_neg (by decide), find_adpcmFetch src hc, if_pos rfl]
      refine ⟨fun _ => ?_, fun hnot => absurd ⟨t, List.mem_cons_self, hnoise, rfl⟩ hnot⟩
      by_cases hrest : Fetches ts t.sampleOffset
      · rw [hin hrest, hfind]; rfl
      · rw [hout hrest, hfind]
    · have hfind : SMap.find (newVoiceCache Config.machine src c t) o = SMap.find c o := by
        unfold newVoiceCache
        split
        · rfl
        · next hnoise =>
          rw [find_adpcmFetch src hc, if_neg]
          exact fun h => hhead ⟨by simpa using hnoise, h.symm⟩
      have hiff : Fetches (t :: ts) o ↔ Fetches ts o := by
        refine ⟨?_, fun ⟨u, hu, h⟩ => ⟨u, List.mem_cons_of_mem _ hu, h⟩⟩
        rintro ⟨u, hu, h⟩
        rcases List.mem_cons.mp hu with rfl | hu
        · exact absurd h hhead
        · exact ⟨u, hu, h⟩
      rw [hiff, ← hfind]
      exact ⟨hin, hout⟩

/-- A note-on keeps the entries it finds. -/
theorem find_foldl_of_find (src : SMap (List Byte)) (ts : List Tone) {c : SMap DecodedSample} (hc : SMap.wf c) {o : Nat}
    {d : DecodedSample} (h : SMap.find c o = some d) :
    SMap.find (ts.foldl (newVoiceCache Config.machine src) c) o = some d := by
  obtain ⟨hin, hout⟩ := find_foldl_newVoiceCache src ts o hc
  by_cases hf : Fetches ts o
  · rw [hin hf, h]; rfl
  · rw [hout hf, h]

/-- The cache after a note-on: untouched, or the Tones of the channel's Program fetched. -/
theorem noteOn_cache (s : State) (k : Nat) (key velocity : U7) :
    ∃ ts : List Tone, (noteOn Config.machine s k key velocity).cache = ts.foldl (newVoiceCache Config.machine s.src) s.cache := by
  unfold noteOn
  split
  · exact ⟨[], rfl⟩
  · next p _ =>
    refine ⟨matchTones p key, ?_⟩
    rw [← addVoices_cache Config.machine s.src s.breath k (channelAt s.ch k) key velocity p _ s.cache s.voices]
    unfold noteOnProgram
    dsimp only
    split <;> rfl

/-- Settles O17: only a fetch and a note-on write the cache, and both keep what they find. -/
theorem cacheEntriesPersist : Obligations.CacheEntriesPersist := by
  intro i s t hwf h
  obtain ⟨hop, rfl⟩ := (Block.exec_eq_next_iff i s t).mp h
  by_cases hfetch : i = .adpcmFetch
  · subst hfetch
    refine ⟨adpcmFetch_wf _ _ _ _ hwf, fun o d hd => (find_adpcmFetch s.src hwf _ o).trans ?_⟩
    split
    · next heq => rw [← heq, hd]; rfl
    · exact hd
  · by_cases hnote : ∃ a key v, i = .mixNoteOn a key v
    · obtain ⟨a, key, v, rfl⟩ := hnote
      refine Block.onChannel_induction (P := fun t => SMap.wf t.cache ∧
        ∀ o d, SMap.find s.cache o = some d → SMap.find t.cache o = some d) a _ s ⟨hwf, fun _ _ hd => hd⟩ fun k _ => ?_
      obtain ⟨ts, hts⟩ := noteOn_cache s k key v
      rw [hts]
      exact ⟨foldl_newVoiceCache_wf s.src ts hwf, fun o d => find_foldl_of_find s.src ts hwf⟩
    · push Not at hnote
      obtain ⟨_, _, _, _, hcache⟩ := Block.unitsAreIsolated i s _ hop h
      rw [hcache hfetch hnote]
      exact ⟨hwf, fun _ _ hd => hd⟩

end Sys2Proof.Adpcm
end

section
/-! The envelope (41_envelope.md rules R160 to R169): what entering a phase writes, what one tick does, the unit's own
invariant, and that a Release ends. -/

open Sys2Proof Sys2Proof.Machine Sys2Proof.Spec

namespace Sys2Proof.Envelope

/-! ## Entering a phase (rules R161 and R162) -/

theorem phaseRate_toNat (r : U32) (p : EnvPhase) : (phaseRate r p).toNat = rate r.toNat p := by
  cases p with
  | off => rfl
  | attack =>
    rw [Encoding.phaseRate_attack_toNat, adsrAttShift, adsrAttStep, Encoding.extract_toNat, Encoding.extract_toNat]; rfl
  | decay => rw [Encoding.phaseRate_decay_toNat, adsrDecShift, Encoding.extract_toNat]; rfl
  | sustain =>
    rw [Encoding.phaseRate_sustain_toNat, adsrSusShift, adsrSusStep, Encoding.extract_toNat, Encoding.extract_toNat]; rfl
  | release => rw [Encoding.phaseRate_release_toNat, adsrRelShift, Encoding.extract_toNat]; rfl

theorem rate_lt (r : Nat) (p : EnvPhase) : rate r p < 128 := by
  cases p <;> simp only [rate] <;> omega

theorem phaseDecreasing_eq (r : U32) (p : EnvPhase) : phaseDecreasing r p = falls r.toNat p := by
  cases p with
  | sustain => rw [phaseDecreasing, adsrSusDir, Encoding.getLsbD_eq]; rfl
  | off | attack | decay | release => rfl

theorem phaseExponential_eq (r : U32) (p : EnvPhase) :
    phaseExponential Config.machine r p = exponential r.toNat p := by
  cases p with
  | attack => rw [phaseExponential, adsrAttExp, Encoding.getLsbD_eq]; rfl
  | sustain => rw [phaseExponential, adsrSusExp, Encoding.getLsbD_eq]; rfl
  | release => rw [phaseExponential, adsrRelExp, Encoding.getLsbD_eq]; rfl
  | off | decay => rfl

/-- With the default parameters a step is flipped exactly in a fall. -/
theorem rateStep_eq (r : Nat) (dec exp : Bool) : rateStep Config.machine r dec exp = Spec.step r dec := by
  have hflip : stepFlipped Config.machine dec exp = dec := by cases dec <;> simp [stepFlipped]
  rw [rateStep, hflip, Spec.step]
  cases dec
  · simp [shl]
  · simp only [negStep, machine_envStepNeg, shl, if_true]
    split
    · push_cast; ring
    · push_cast; ring

theorem step_bounds (r : Nat) (dec : Bool) : -14336 ≤ Spec.step r dec ∧ Spec.step r dec ≤ 14336 := by
  have hpow : ((2 : ℤ) ^ (11 - r / 4)) ≤ 2 ^ 11 := by
    exact_mod_cast Nat.pow_le_pow_right (by decide : 0 < 2) (by omega : 11 - r / 4 ≤ 11)
  have hpos : (0 : ℤ) < 2 ^ (11 - r / 4) := by positivity
  have hmod : (0 : ℤ) ≤ (r : ℤ) % 4 ∧ (r : ℤ) % 4 < 4 := by omega
  have hbase : (0 : ℤ) ≤ (if r < 44 then (7 - r % 4 : ℤ) * 2 ^ (11 - r / 4) else 7 - r % 4) ∧
      (if r < 44 then (7 - r % 4 : ℤ) * 2 ^ (11 - r / 4) else 7 - r % 4) ≤ 14336 := by
    split
    · exact ⟨by nlinarith, by nlinarith⟩
    · omega
  rw [Spec.step]
  split <;> omega

theorem step_nonneg (r : Nat) : 0 ≤ Spec.step r false := by
  have hpos : (0 : ℤ) < 2 ^ (11 - r / 4) := by positivity
  have hmod : (0 : ℤ) ≤ 7 - (r : ℤ) % 4 := by omega
  simp only [Spec.step, Bool.false_eq_true, if_false]
  split
  · exact mul_nonneg hmod hpos.le
  · exact hmod

theorem step_neg (r : Nat) : Spec.step r true < 0 := by
  have hpos : (0 : ℤ) < 2 ^ (11 - r / 4) := by positivity
  have hmod : (0 : ℤ) < 7 - (r : ℤ) % 4 := by omega
  simp only [Spec.step, if_true]
  split
  · exact neg_neg_of_pos (mul_pos hmod hpos)
  · exact neg_neg_of_pos hmod

/-- The rate that has all bits of a phase's mask, among the rates the phase can have. -/
theorem and_mask_eq_iff (reg : Nat) (p : EnvPhase) (hp : p ≠ .off) :
    rate reg p &&& phaseMask Config.machine p = phaseMask Config.machine p ↔
      rate reg p = if p = .attack ∨ p = .sustain then 127 else 124 := by
  have hwide : ∀ r, r < 128 → (r &&& 127 = 127 ↔ r = 127) := by decide
  have hnarrow : ∀ q, q < 32 → (q * 4 &&& 124 = 124 ↔ q * 4 = 124) := by decide
  have hlt := rate_lt reg p
  cases p with
  | off => exact absurd rfl hp
  | attack => exact hwide _ hlt
  | sustain => exact hwide _ hlt
  | decay => exact hnarrow (reg / 2 ^ 4 % 16) (by omega)
  | release => exact hnarrow (reg / 2 ^ 16 % 32) (by omega)

theorem rateInc_eq (reg : Nat) (p : EnvPhase) (hp : p ≠ .off) :
    rateInc Config.machine (rate reg p) (phaseMask Config.machine p) =
      inc (rate reg p) (if p = .attack ∨ p = .sustain then 127 else 124) := by
  have hlt := rate_lt reg p
  have hmask := and_mask_eq_iff reg p hp
  have hnever : 124 ≤ (if p = .attack ∨ p = .sustain then 127 else 124) := by split <;> omega
  simp only [rateInc, inc, machine_envIncBase, hmask, max_comm]
  generalize (if p = .attack ∨ p = .sustain then 127 else 124) = never at *
  split
  · rfl
  · split
    · next h => rw [show rate reg p / 4 - 11 = 20 by omega]; rfl
    · rfl

theorem inc_le (r never : Nat) : inc r never ≤ 32768 := by
  unfold inc
  split
  · exact le_rfl
  · split
    · omega
    · exact max_le (by decide) (Nat.div_le_self _ _)

theorem ofInt32_toInt {v : ℤ} (h1 : -14336 ≤ v) (h2 : v ≤ 14336) : (BitVec.ofInt 32 v).toInt = v := by
  rw [BitVec.toInt_ofInt, Int.bmod_def]
  split <;> omega

theorem setPhase_step (e : Env) {p : EnvPhase} (hp : p ≠ .off) : (Env.setPhase Config.machine e p).step.toInt =
    Spec.step (rate e.reg.toNat p) (falls e.reg.toNat p) := by
  obtain ⟨h1, h2⟩ := step_bounds (rate e.reg.toNat p) (falls e.reg.toNat p)
  simp only [Env.setPhase, if_neg hp, rateStep_eq, phaseRate_toNat, phaseDecreasing_eq]
  exact ofInt32_toInt h1 h2

theorem setPhase_inc (e : Env) {p : EnvPhase} (hp : p ≠ .off) : (Env.setPhase Config.machine e p).inc.toNat =
    inc (rate e.reg.toNat p) (if p = .attack ∨ p = .sustain then 127 else 124) := by
  have hle := inc_le (rate e.reg.toNat p) (if p = .attack ∨ p = .sustain then 127 else 124)
  simp only [Env.setPhase, if_neg hp, phaseRate_toNat, rateInc_eq _ p hp, BitVec.toNat_ofNat]
  omega

theorem phaseTarget_attack (r : U32) : phaseTarget r .attack = 32767 := rfl

theorem phaseTarget_sustain (r : U32) : phaseTarget r .sustain = 0 := rfl

theorem phaseTarget_release (r : U32) : phaseTarget r .release = 0 := rfl

theorem phaseTarget_decay (r : U32) : phaseTarget r .decay = min ((((r.toNat % 16 : Nat) : ℤ) + 1) * 2048) 32767 := by
  have hlevel : (adsrSusLevel r).toNat = r.toNat % 16 := by rw [adsrSusLevel, Encoding.extract_toNat]; omega
  rw [← hlevel]
  delta phaseTarget
  dsimp only

theorem setPhase_target (e : Env) (p : EnvPhase) (h1 : 0 ≤ phaseTarget e.reg p) (h2 : phaseTarget e.reg p ≤ 32767) :
    (Env.setPhase Config.machine e p).target.toInt = phaseTarget e.reg p := by
  rw [Env.setPhase_target, toS16_toInt, sat16_of_mem _ (by omega) h2]

/-- Settles O21. -/
theorem phaseParameters : Obligations.PhaseParameters := by
  intro e p hp n r
  refine ⟨phaseRate_toNat _ _, phaseDecreasing_eq _ _, phaseExponential_eq _ _, setPhase_step e hp, setPhase_inc e hp,
    ?attack, ?decay, ?zero, rfl, rfl, rfl, rfl⟩
  case attack =>
    rintro rfl
    have htarget := phaseTarget_attack e.reg
    rw [setPhase_target e .attack (by omega) (by omega), htarget]
  case decay =>
    rintro rfl
    have htarget := phaseTarget_decay e.reg
    rw [setPhase_target e .decay (by omega) (by omega), htarget]
    omega
  case zero =>
    rintro (rfl | rfl)
    · have htarget := phaseTarget_sustain e.reg
      rw [setPhase_target e .sustain (by omega) (by omega), htarget]
    · have htarget := phaseTarget_release e.reg
      rw [setPhase_target e .release (by omega) (by omega), htarget]

/-! ## Load and key off (rules R160 and R164) -/

/-- Settles O18. -/
theorem envLoadResult : Obligations.EnvLoadResult := fun _ => rfl

theorem exec_envKeyoff (s : State) :
    exec .envKeyoff s = .next { s with envd := Env.keyOff Config.machine s.envd } := rfl

/-- Settles O20. -/
theorem envKeyoffResult : Obligations.EnvKeyoffResult := by
  refine ⟨rfl, fun s => ⟨fun hheld => ?_, fun hsounds => ⟨?_, rfl, rfl, rfl⟩⟩⟩
  · rw [exec_envKeyoff, Env.keyOff, if_pos hheld]
  · rw [exec_envKeyoff, Env.keyOff, if_neg]
    rintro (h | h) <;> simp [h] at hsounds

/-! ## One tick (rule R165) -/

/-- The slow end of an exponential rise. -/
def slow (e : Env) : Bool := e.exponential && !e.decreasing && decide (24576 ≤ e.level.toInt)

theorem tickInc_eq (e : Env) : tickInc Config.machine e =
    if slow e && decide (44 ≤ e.rate.toNat) then e.inc.toNat / 2 else e.inc.toNat := by
  simp [tickInc, slow, and_assoc]

theorem tickStep_eq (e : Env) : tickStep Config.machine e =
    if e.exponential && e.decreasing then e.step.toInt * e.level.toInt / 32768
    else if slow e && decide (e.rate.toNat < 44) then e.step.toInt / 2 else e.step.toInt := by
  cases hexp : e.exponential <;> cases hdec : e.decreasing <;> simp [tickStep, slow, hexp, hdec, asr]

theorem applyStep_frame (e : Env) : Env.applyStep Config.machine e =
    { e with level := (Env.applyStep Config.machine e).level, counter := (Env.applyStep Config.machine e).counter } := by
  unfold Env.applyStep
  dsimp only
  split <;> rfl

/-- A tick that only counts. -/
theorem applyStep_of_lt {e : Env} (h : e.counter.toNat + tickInc Config.machine e < 32768) :
    (Env.applyStep Config.machine e).counter.toNat = e.counter.toNat + tickInc Config.machine e ∧
      (Env.applyStep Config.machine e).level = e.level := by
  rw [Env.applyStep, if_neg (by rw [machine_envCtrThreshold]; omega)]
  refine ⟨?_, rfl⟩
  rw [BitVec.toNat_ofNat]
  omega

/-- A tick that steps: the counter is cleared and the level moves by the step, within its rails. -/
theorem applyStep_of_ge {e : Env} (h : 32768 ≤ e.counter.toNat + tickInc Config.machine e) :
    (Env.applyStep Config.machine e).counter = 0 ∧ (Env.applyStep Config.machine e).level.toInt =
      min 32767 (if e.decreasing then max (e.level.toInt + tickStep Config.machine e) 0
        else max (e.level.toInt + tickStep Config.machine e) (-32768)) := by
  rw [Env.applyStep, if_pos (by rw [machine_envCtrThreshold]; exact h)]
  refine ⟨rfl, ?_⟩
  rw [toS16_toInt]
  simp only [clampLevel, sat16, clamp, machine_envPhaseInvert]
  cases e.decreasing
  · simp only [Bool.not_false, if_true, Bool.false_eq_true, if_false]; omega
  · simp only [Bool.not_true, if_true, Bool.false_eq_true, if_false]; omega

/-- Settles O22: the tick is `Advance` after the counted step. -/
theorem envTickResult : Obligations.EnvTickResult := by
  intro s
  have hexec : exec .envTick s = .next { s with
      envd := Env.tick Config.machine s.envd
      result := .level (Env.tick Config.machine s.envd).level (Env.tick Config.machine s.envd).phase } := rfl
  refine ⟨fun hoff => ?_, fun hne => ⟨Env.applyStep Config.machine s.envd, ?_, applyStep_frame s.envd, ?_⟩⟩
  · rw [hexec, Env.tick, if_pos hoff, hoff]
  · rw [hexec, tick_of_ne_off _ hne]
  · have hinc := tickInc_eq s.envd
    have hstep := tickStep_eq s.envd
    refine ⟨fun hlt => ?_, fun hge => ?_⟩
    · obtain ⟨hcounter, hlevel⟩ := applyStep_of_lt (e := s.envd) (by rw [hinc]; exact hlt)
      exact ⟨by rw [hcounter, hinc]; rfl, hlevel⟩
    · obtain ⟨hcounter, hlevel⟩ := applyStep_of_ge (e := s.envd) (by rw [hinc]; exact hge)
      exact ⟨hcounter, by rw [hlevel, hstep]; rfl⟩

/-! ## The unit's invariant -/

theorem setPhase_wf {e : Env} {p : EnvPhase} (hlevel : 0 ≤ e.level.toInt) (hoff : p = .off → e.level = 0) :
    (Env.setPhase Config.machine e p).wf :=
  ⟨rfl, hlevel, hoff, Nat.two_pow_pos 15⟩

theorem load_wf (e : Env) (lo16 hi16 : U16) : (Env.load Config.machine e lo16 hi16).wf :=
  setPhase_wf le_rfl fun _ => rfl

theorem keyOn_wf (e : Env) : (Env.keyOn Config.machine e).wf :=
  setPhase_wf le_rfl fun h => (nomatch h)

theorem keyOff_wf {e : Env} (h : e.wf) : (Env.keyOff Config.machine e).wf := by
  rcases Env.keyOff_cases Config.machine e with ⟨_, heq⟩ | ⟨_, _, heq⟩ <;> rw [heq]
  · exact h
  · exact setPhase_wf h.2.1 fun h => (nomatch h)

theorem fresh_wf : Env.fresh.wf := by decide +kernel

/-- The parameters of a well-formed unit are those of its register and phase. -/
theorem params_of_wf {e : Env} (h : e.wf) (hp : e.phase ≠ .off) : e.decreasing = falls e.reg.toNat e.phase ∧
    e.step.toInt = Spec.step (rate e.reg.toNat e.phase) (falls e.reg.toNat e.phase) := by
  obtain ⟨hparams, _⟩ := h
  have hdec := congrArg Env.decreasing hparams
  have hstep := congrArg (fun x => x.step.toInt) hparams
  exact ⟨hdec.symm.trans (phaseDecreasing_eq _ _), hstep.symm.trans (setPhase_step e hp)⟩

theorem attack_of_wf {e : Env} (h : e.wf) (hp : e.phase = .attack) : e.decreasing = false := by
  rw [(params_of_wf h (by simp [hp])).1, hp]; rfl

theorem release_of_wf {e : Env} (h : e.wf) (hp : e.phase = .release) : e.decreasing = true ∧ e.target = 0 := by
  refine ⟨by rw [(params_of_wf h (by simp [hp])).1, hp]; rfl, ?_⟩
  have htarget := congrArg Env.target h.1
  rw [hp] at htarget
  exact htarget.symm

/-- A rise steps up or stays. -/
theorem tickStep_nonneg {e : Env} (h : e.wf) (hp : e.phase ≠ .off) (hdec : e.decreasing = false) :
    0 ≤ tickStep Config.machine e := by
  obtain ⟨hfalls, hstep⟩ := params_of_wf h hp
  rw [← hfalls, hdec] at hstep
  have hnonneg := step_nonneg (rate e.reg.toNat e.phase)
  rw [tickStep_eq, hdec, Bool.and_false, if_neg (by decide)]
  split <;> omega

/-- A fall steps down; at level 0 an exponential one stays. -/
theorem tickStep_fall {e : Env} (h : e.wf) (hp : e.phase ≠ .off) (hdec : e.decreasing = true) :
    tickStep Config.machine e ≤ 0 ∧ (0 < e.level.toInt → tickStep Config.machine e < 0) := by
  obtain ⟨hfalls, hstep⟩ := params_of_wf h hp
  have hlevel := h.2.1
  rw [← hfalls, hdec] at hstep
  have hneg := step_neg (rate e.reg.toNat e.phase)
  rw [← hstep] at hneg
  have hslow : slow e = false := by simp [slow, hdec]
  rw [tickStep_eq, hdec, Bool.and_true, hslow, Bool.false_and, if_neg (by decide : ¬ (false = true))]
  split
  · have hprod : e.step.toInt * e.level.toInt ≤ 0 := mul_nonpos_of_nonpos_of_nonneg hneg.le hlevel
    refine ⟨by omega, fun hpos => ?_⟩
    have hprod' : e.step.toInt * e.level.toInt < 0 := mul_neg_of_neg_of_pos hneg hpos
    omega
  · exact ⟨hneg.le, fun _ => hneg⟩

theorem applyStep_level_nonneg {e : Env} (h : e.wf) (hp : e.phase ≠ .off) :
    0 ≤ (Env.applyStep Config.machine e).level.toInt := by
  have hlevel := h.2.1
  rcases Nat.lt_or_ge (e.counter.toNat + tickInc Config.machine e) 32768 with hlt | hge
  · rw [(applyStep_of_lt hlt).2]; exact hlevel
  · rw [(applyStep_of_ge hge).2]
    cases hdec : e.decreasing
    · have := tickStep_nonneg h hp hdec
      simp only [Bool.false_eq_true, if_false]; omega
    · simp only [if_true]; omega

theorem applyStep_counter_lt (e : Env) : (Env.applyStep Config.machine e).counter.toNat < 0x8000 := by
  rcases Nat.lt_or_ge (e.counter.toNat + tickInc Config.machine e) 32768 with hlt | hge
  · rw [(applyStep_of_lt hlt).1]; exact hlt
  · rw [(applyStep_of_ge hge).1]; decide

theorem applyStep_wf {e : Env} (h : e.wf) (hp : e.phase ≠ .off) : (Env.applyStep Config.machine e).wf := by
  refine ⟨?_, applyStep_level_nonneg h hp, fun hoff => absurd ((Env.applyStep_phase _ _).symm.trans hoff) hp,
    applyStep_counter_lt e⟩
  have hparams := congrArg (fun x => { x with level := (Env.applyStep Config.machine e).level }) h.1
  rw [applyStep_frame e]
  exact hparams

theorem advance_wf {e : Env} (h : e.wf) : (Env.advance Config.machine e).wf := by
  rcases Env.advance_cases Config.machine e with heq | ⟨hreached, ⟨_, heq⟩ | ⟨_, heq⟩ | ⟨hp, heq⟩⟩ <;> rw [heq]
  · exact h
  · exact setPhase_wf h.2.1 fun h => (nomatch h)
  · exact setPhase_wf h.2.1 fun h => (nomatch h)
  · refine setPhase_wf h.2.1 fun _ => BitVec.eq_of_toInt_eq (le_antisymm ?_ h.2.1)
    obtain ⟨hdec, htarget⟩ := release_of_wf h hp
    simpa [Env.reached, hdec, htarget] using hreached

theorem tick_wf {e : Env} (h : e.wf) : (Env.tick Config.machine e).wf := by
  by_cases hp : e.phase = .off
  · rwa [Env.tick, if_pos hp]
  · rw [tick_of_ne_off _ hp]
    exact advance_wf (applyStep_wf h hp)

theorem tick_level {e : Env} (hp : e.phase ≠ .off) :
    (Env.tick Config.machine e).level = (Env.applyStep Config.machine e).level := by
  rw [tick_of_ne_off _ hp, Env.advance_level]

/-- Settles O24. -/
theorem envLevelMonotone : Obligations.EnvLevelMonotone := by
  intro e h
  refine ⟨fun hp => ?attack, fun hp => ?release, (tick_wf h).2.1, (toInt_bounds _).2⟩
  case attack =>
    have hne : e.phase ≠ .off := by simp [hp]
    have hdec := attack_of_wf h hp
    have hstep := tickStep_nonneg h hne hdec
    have htop := (toInt_bounds e.level).2
    rw [tick_level hne]
    rcases Nat.lt_or_ge (e.counter.toNat + tickInc Config.machine e) 32768 with hlt | hge
    · rw [(applyStep_of_lt hlt).2]
    · rw [(applyStep_of_ge hge).2, hdec]
      simp only [Bool.false_eq_true, if_false]; omega
  case release =>
    have hne : e.phase ≠ .off := by simp [hp]
    obtain ⟨hdec, _⟩ := release_of_wf h hp
    have hlevel := h.2.1
    rw [tick_level hne]
    rcases Nat.lt_or_ge (e.counter.toNat + tickInc Config.machine e) 32768 with hlt | hge
    · rw [(applyStep_of_lt hlt).2]
    · rw [(applyStep_of_ge hge).2, hdec]
      have hstep := (tickStep_fall h hne hdec).1
      simp only [if_true]; omega

/-! ## A Release ends -/

/-- What is left of a Release: the level in steps of one, each up to 32768 counts away. It falls on every tick. -/
def releaseLeft (e : Env) : Nat := e.level.toInt.toNat * 32768 + (32768 - e.counter.toNat)

/-- A tick in Release ends it, or leaves less of it. -/
theorem release_tick {e : Env} (h : e.wf) (hp : e.phase = .release) (hinc : e.inc ≠ 0) :
    ((Env.tick Config.machine e).phase = .off ∧ (Env.tick Config.machine e).level = 0) ∨
      ((Env.tick Config.machine e).phase = .release ∧ (Env.tick Config.machine e).inc ≠ 0 ∧
        releaseLeft (Env.tick Config.machine e) < releaseLeft e) := by
  have hne : e.phase ≠ .off := by simp [hp]
  have hwf := applyStep_wf h hne
  have hp' : (Env.applyStep Config.machine e).phase = .release := (Env.applyStep_phase _ _).trans hp
  obtain ⟨hdec, htarget⟩ := release_of_wf hwf hp'
  have hreached : (Env.applyStep Config.machine e).reached =
      decide ((Env.applyStep Config.machine e).level.toInt ≤ 0) := by rw [Env.reached, hdec, htarget]; rfl
  rw [tick_of_ne_off _ hne]
  rcases le_or_gt (Env.applyStep Config.machine e).level.toInt 0 with hzero | hpos
  · left
    rw [advance_release _ (by rw [hreached]; exact decide_eq_true hzero) hp']
    exact ⟨rfl, BitVec.eq_of_toInt_eq (le_antisymm hzero hwf.2.1)⟩
  · right
    rw [advance_of_not_reached _ (by rw [hreached]; exact decide_eq_false (by omega))]
    refine ⟨hp', ?_, ?_⟩
    · rw [applyStep_frame]; exact hinc
    · have hdec' := (release_of_wf h hp).1
      have hcounter : e.counter.toNat < 0x8000 := h.2.2.2
      have htick : tickInc Config.machine e = e.inc.toNat := by
        rw [tickInc_eq, slow, hdec']; simp
      have hincpos : 0 < e.inc.toNat := Nat.pos_of_ne_zero fun h0 => hinc (BitVec.eq_of_toNat_eq h0)
      simp only [releaseLeft]
      rcases Nat.lt_or_ge (e.counter.toNat + tickInc Config.machine e) 32768 with hlt | hge
      · obtain ⟨hc, hl⟩ := applyStep_of_lt hlt
        rw [hl]; omega
      · obtain ⟨hc, hl⟩ := applyStep_of_ge hge
        rw [hdec', if_pos rfl] at hl
        have hlevel := h.2.1
        obtain ⟨hfall, hless⟩ := tickStep_fall h hne hdec'
        have hc0 : (Env.applyStep Config.machine e).counter.toNat = 0 := by rw [hc]; rfl
        omega

theorem release_ends (n : Nat) : ∀ e : Env, e.wf → e.phase = .release → e.inc ≠ 0 → releaseLeft e ≤ n →
    ∃ k, k ≤ n ∧ ((Env.tick Config.machine)^[k] e).phase = .off ∧ ((Env.tick Config.machine)^[k] e).level = 0 := by
  induction n with
  | zero =>
    intro e h _ _ hleft
    have hcounter : e.counter.toNat < 0x8000 := h.2.2.2
    simp only [releaseLeft] at hleft
    omega
  | succ n ih =>
    intro e h hp hinc hleft
    rcases release_tick h hp hinc with ⟨hoff, hlevel⟩ | ⟨hp', hinc', hless⟩
    · exact ⟨1, by omega, hoff, hlevel⟩
    · obtain ⟨k, hk, hend⟩ := ih _ (tick_wf h) hp' hinc' (by omega)
      exact ⟨k + 1, by omega, by simpa only [Function.iterate_succ_apply] using hend⟩

/-- Settles O25: at most 2^30 counts are left of any Release. -/
theorem releaseReachesOff : Obligations.ReleaseReachesOff := by
  intro e h hp hinc
  have hlevel := toInt_bounds e.level
  have hleft : releaseLeft e ≤ 2 ^ 30 := by simp only [releaseLeft]; omega
  exact release_ends (2 ^ 30) e h hp hinc hleft

end Sys2Proof.Envelope
end

section
/-! The reverb (42_reverb.md rules R200 to R210): the sparse delay memory simulates an array of integers, operation by
operation, and the cursor turns round the working region. -/

open Sys2Proof Sys2Proof.Machine Sys2Proof.Spec

namespace Sys2Proof.ReverbUnit

/-! ## Registers and addresses (rules R97 and R202) -/

theorem samp_eq (r : U16) : samp 8 r = r.toNat * 4 := by rw [samp]; omega

theorem offs_eq (rv : Reverb) (r : RvbReg) : ((rv.offs Config.machine r : Nat) : ℤ) = (taps rv).offs r := by
  rw [Reverb.offs, machine_rvbAddrScale, samp_eq]; rfl

theorem base_eq (rv : Reverb) : rv.base Config.machine = (rv.reg[34]).toNat * 4 := samp_eq _

theorem addr_eq (rv : Reverb) (rel : ℤ) : rv.addr Config.machine rel = (taps rv).addr rel := by
  have hlt := rv.base_lt
  have hspan : ((rv.span Config.machine : Nat) : ℤ) = 262144 - (rv.base Config.machine : ℤ) := by
    rw [Reverb.span, machine_rvbMemSamples]; omega
  have hpos : (0 : ℤ) < 262144 - (rv.base Config.machine : ℤ) := by omega
  have hmod := Int.emod_nonneg ((rv.cursor : ℤ) - rv.base Config.machine + rel) hpos.ne'
  rw [Reverb.addr, hspan]
  simp only [taps, ← base_eq]
  omega

theorem q15_eq (a g : ℤ) : q15 a g = a * g / 32768 := rfl

theorem sat16_eq (v : ℤ) : sat16 v = max (-32768) (min 32767 v) := rfl

/-! ## `RVB.WRITE` and `RVB.RESET` -/

/-- Settles O26. -/
theorem rvbWriteResult : Obligations.RvbWriteResult := by
  intro index value s
  refine ⟨fun hbeyond => ?_, fun hindex => ?_⟩
  · rw [Block.exec_rvbWrite, Block.effect, (rvbIndexOf_none index).mpr hbeyond]
  · have hvalid : rvbIndexOf index = some ⟨index.toNat, hindex⟩ := (rvbIndexOf_some _ _).mpr rfl
    have hbase : (⟨index.toNat, hindex⟩ : Fin numRvbRegs) = RvbReg.mBASE.index ↔ index.toNat = 34 := Fin.ext_iff
    rw [Block.exec_rvbWrite, Block.effect, hvalid]
    simp only [Reverb.writeReg, hbase]
    split
    · next h34 => simp [base_eq, h34]
    · rfl

/-- Settles O27. -/
theorem rvbResetResult : Obligations.RvbResetResult :=
  fun s => ⟨s.rvb.clear Config.machine, rfl, fun _ => rfl, ⟨List.Pairwise.nil, fun _ h => (nomatch h)⟩, base_eq s.rvb, rfl⟩

/-! ## The array behind the sparse memory -/

/-- The reverb `rv` stands for the cells `μ`, with the registers and the cursor that give the taps `x`. -/
structure Models (x : Taps) (μ : Cells) (rv : Reverb) : Prop where
  taps_eq : taps rv = x
  cells_eq : cells rv = μ
  wf : Memory.wf rv.mem

variable {x : Taps} {μ : Cells} {rv : Reverb}

theorem Models.gain (h : Models x μ rv) (r : RvbReg) : rv.gain r = x.gain r := by rw [← h.taps_eq]; rfl

theorem Models.offs (h : Models x μ rv) (r : RvbReg) : ((rv.offs Config.machine r : Nat) : ℤ) = x.offs r := by
  rw [← h.taps_eq, offs_eq]

theorem Models.read (h : Models x μ rv) (rel : ℤ) : rv.read Config.machine rel = μ (x.addr rel) := by
  rw [← h.taps_eq, ← h.cells_eq, ← addr_eq]; rfl

theorem Models.write (h : Models x μ rv) (rel v : ℤ) :
    Models x (x.put μ (x.addr rel) v) (rv.write Config.machine rel v) where
  taps_eq := h.taps_eq
  wf := Reverb.write_mem_wf _ _ _ _ h.wf
  cells_eq := by
    funext b
    have hread := Memory.read_write rv.mem (rv.addr Config.machine rel) b (toS16 v) h.wf
    rw [cells, Reverb.write, hread, addr_eq, h.taps_eq, Taps.put, ← h.cells_eq]
    split
    · rw [toS16_toInt, sat16_eq]
    · rfl

theorem Models.reflect (h : Models x μ rv) (m d : RvbReg) (input : ℤ) :
    Models x (x.reflect m d input μ) (rv.reflect Config.machine m d input) := by
  rw [Reverb.reflect]
  simp only [h.read, h.gain, h.offs, q15_eq]
  exact h.write (x.offs m) _

theorem Models.tap (h : Models x μ rv) (m g : RvbReg) : rv.tap Config.machine m g = x.comb μ m g := by
  rw [Reverb.tap, h.read, h.gain, h.offs, q15_eq]; rfl

theorem Models.allPass (h : Models x μ rv) (input : ℤ) (m d g : RvbReg) :
    Models x (x.allPass input m d g μ).1 (rv.allPass Config.machine input m d g).1 ∧
      (rv.allPass Config.machine input m d g).2 = (x.allPass input m d g μ).2 := by
  rw [Reverb.allPass]
  simp only [h.read, h.gain, h.offs, allPassIn, allPassOut, machine_rvbApfForm, q15_eq, sat16_eq]
  exact ⟨h.write (x.offs m) _, rfl⟩

/-! ### The stages of the network on the array (rules R204 to R207) -/

/-- Stages 1 and 2: input gains and the four reflections. -/
def reflectionCells (x : Taps) (inL inR : ℤ) (μ : Cells) : Cells :=
  x.reflect .mRDIFF .dLDIFF (inR * x.gain .vRIN / 32768) (x.reflect .mLDIFF .dRDIFF (inL * x.gain .vLIN / 32768)
    (x.reflect .mRSAME .dRSAME (inR * x.gain .vRIN / 32768) (x.reflect .mLSAME .dLSAME (inL * x.gain .vLIN / 32768) μ)))

/-- Stage 3, left channel. -/
def combSumL (x : Taps) (μ : Cells) : ℤ :=
  x.comb μ .mLCOMB1 .vCOMB1 + x.comb μ .mLCOMB2 .vCOMB2 + x.comb μ .mLCOMB3 .vCOMB3 + x.comb μ .mLCOMB4 .vCOMB4

/-- Stage 3, right channel. -/
def combSumR (x : Taps) (μ : Cells) : ℤ :=
  x.comb μ .mRCOMB1 .vCOMB1 + x.comb μ .mRCOMB2 .vCOMB2 + x.comb μ .mRCOMB3 .vCOMB3 + x.comb μ .mRCOMB4 .vCOMB4

/-- Stage 4: the cells behind the four all-pass stages, and both outputs. -/
def allPassCells (x : Taps) (l r : ℤ) (μ : Cells) : Cells × ℤ × ℤ :=
  let a := x.allPass l .mLAPF1 .dAPF1 .vAPF1 μ
  let b := x.allPass r .mRAPF1 .dAPF1 .vAPF1 a.1
  let c := x.allPass a.2 .mLAPF2 .dAPF2 .vAPF2 b.1
  let d := x.allPass b.2 .mRAPF2 .dAPF2 .vAPF2 c.1
  (d.1, c.2, d.2)

theorem frame_eq (x : Taps) (inL inR : ℤ) (μ : Cells) : x.frame inL inR μ =
    let μ4 := reflectionCells x inL inR μ
    let p := allPassCells x (combSumL x μ4) (combSumR x μ4) μ4
    (p.1, sat16 (p.2.1 * x.gain .vLOUT / 32768), sat16 (p.2.2 * x.gain .vROUT / 32768)) := rfl

theorem Models.reflections (h : Models x μ rv) (inL inR : S16) :
    Models x (reflectionCells x inL.toInt inR.toInt μ) (rv.reflections Config.machine inL inR) := by
  rw [Reverb.reflections, h.gain, h.gain, q15_eq, q15_eq]
  exact (((h.reflect _ _ _).reflect _ _ _).reflect _ _ _).reflect _ _ _

theorem Models.combL (h : Models x μ rv) : rv.combL Config.machine = combSumL x μ := by
  rw [Reverb.combL, h.tap, h.tap, h.tap, h.tap]; rfl

theorem Models.combR (h : Models x μ rv) : rv.combR Config.machine = combSumR x μ := by
  rw [Reverb.combR, h.tap, h.tap, h.tap, h.tap]; rfl

theorem Models.allPasses (h : Models x μ rv) (l r : ℤ) :
    Models x (allPassCells x l r μ).1 (rv.allPasses Config.machine l r).1 ∧
      (rv.allPasses Config.machine l r).2 = (allPassCells x l r μ).2 := by
  obtain ⟨ha, hla⟩ := h.allPass l .mLAPF1 .dAPF1 .vAPF1
  obtain ⟨hb, hrb⟩ := ha.allPass r .mRAPF1 .dAPF1 .vAPF1
  obtain ⟨hc, hlc⟩ := hb.allPass (x.allPass l .mLAPF1 .dAPF1 .vAPF1 μ).2 .mLAPF2 .dAPF2 .vAPF2
  obtain ⟨hd, hrd⟩ := hc.allPass (x.allPass r .mRAPF1 .dAPF1 .vAPF1 (x.allPass l .mLAPF1 .dAPF1 .vAPF1 μ).1).2
    .mRAPF2 .dAPF2 .vAPF2
  simp only [Reverb.allPasses, hla, hrb, hlc, hrd]
  exact ⟨hd, rfl⟩

theorem cells_advance (rv : Reverb) : cells (rv.advance Config.machine) = cells rv := by
  funext a
  simp only [cells, Reverb.advance]

/-- One step of the network: the cells and both outputs are those of the array. -/
theorem Models.step (h : Models x μ rv) (inL inR : S16) :
    cells (rv.stepFrame Config.machine inL inR).1 = (x.frame inL.toInt inR.toInt μ).1 ∧
      Memory.wf (rv.stepFrame Config.machine inL inR).1.mem ∧
      (rv.stepFrame Config.machine inL inR).2.1.toInt = (x.frame inL.toInt inR.toInt μ).2.1 ∧
      (rv.stepFrame Config.machine inL inR).2.2.toInt = (x.frame inL.toInt inR.toInt μ).2.2 := by
  have hr := h.reflections inL inR
  obtain ⟨hp, hout⟩ := hr.allPasses (combSumL x (reflectionCells x inL.toInt inR.toInt μ))
    (combSumR x (reflectionCells x inL.toInt inR.toInt μ))
  rw [frame_eq, Reverb.stepFrame, hr.combL, hr.combR]
  simp only [hout, hp.gain, toS16_toInt, q15_eq]
  refine ⟨(cells_advance _).trans hp.cells_eq, ?_, True.intro, True.intro⟩
  rw [Reverb.advance]
  exact hp.wf

theorem models_self (rv : Reverb) (h : Memory.wf rv.mem) : Models (taps rv) (cells rv) rv := ⟨rfl, rfl, h⟩

/-- `RVB.STEP` is the network's frame on the inputs at the ports. -/
theorem exec_rvbStep_frame (s : State) : exec .rvbStep s = .next { s with
    rvb := (s.rvb.stepFrame Config.machine s.ports.inL s.ports.inR).1
    result := .frame (s.rvb.stepFrame Config.machine s.ports.inL s.ports.inR).2.1
      (s.rvb.stepFrame Config.machine s.ports.inL s.ports.inR).2.2 } := Block.exec_rvbStep s

/-- `RVB.STEPF` is the same frame between the adapters of rule R12. -/
theorem exec_rvbStepf_frame (s : State) : exec .rvbStepf s = .next { s with
    rvb := (s.rvb.stepFrame Config.machine (toPcm s.ports.inFL) (toPcm s.ports.inFR)).1
    result := .frameF (ofPcm (s.rvb.stepFrame Config.machine (toPcm s.ports.inFL) (toPcm s.ports.inFR)).2.1)
      (ofPcm (s.rvb.stepFrame Config.machine (toPcm s.ports.inFL) (toPcm s.ports.inFR)).2.2) } := by
  rw [Block.exec_rvbStepf]
  simp only [Block.effect, Reverb.stepFrameF, toPcm, ofPcm]

/-- Settles O29. -/
theorem rvbStepRefinesArray : Obligations.RvbStepRefinesArray := by
  intro s hwf
  obtain ⟨hcells, _, hl, hr⟩ := (models_self s.rvb hwf).step s.ports.inL s.ports.inR
  exact ⟨_, _, _, exec_rvbStep_frame s, congrFun hcells, hl, hr⟩

/-! ## The frame of a step (rule R204) -/

theorem put_of_ne (x : Taps) (μ : Cells) {a b : Nat} (v : ℤ) (h : b ≠ a) : x.put μ a v b = μ b := if_neg h

theorem reflect_of_ne (x : Taps) (m d : RvbReg) (input : ℤ) (μ : Cells) {b : Nat} (h : b ≠ x.addr (x.offs m)) :
    x.reflect m d input μ b = μ b := put_of_ne x μ _ h

theorem allPass_of_ne (x : Taps) (input : ℤ) (m d g : RvbReg) (μ : Cells) {b : Nat} (h : b ≠ x.addr (x.offs m)) :
    (x.allPass input m d g μ).1 b = μ b := put_of_ne x μ _ h

/-- A cell at none of the eight destination addresses is kept. -/
theorem frame_of_not_written (x : Taps) (inL inR : ℤ) (μ : Cells) {b : Nat}
    (h : b ∉ written.map (fun m => x.addr (x.offs m))) : (x.frame inL inR μ).1 b = μ b := by
  simp only [written, List.map_cons, List.map_nil, List.mem_cons, List.not_mem_nil, or_false, not_or] at h
  obtain ⟨h1, h2, h3, h4, h5, h6, h7, h8⟩ := h
  simp only [frame_eq, allPassCells, reflectionCells]
  rw [allPass_of_ne _ _ _ _ _ _ h8, allPass_of_ne _ _ _ _ _ _ h7, allPass_of_ne _ _ _ _ _ _ h6,
    allPass_of_ne _ _ _ _ _ _ h5, reflect_of_ne _ _ _ _ _ h4, reflect_of_ne _ _ _ _ _ h3, reflect_of_ne _ _ _ _ _ h2,
    reflect_of_ne _ _ _ _ _ h1]

/-- Settles O28: what the array keeps the memory keeps. -/
theorem rvbStepFrame : Obligations.RvbStepFrame := by
  intro s hwf
  obtain ⟨hcells, hwf', _, _⟩ := (models_self s.rvb hwf).step s.ports.inL s.ports.inR
  refine ⟨_, _, _, exec_rvbStep_frame s, Reverb.stepFrame_reg _ _ _ _, hwf', ?_, fun a ha => ?_⟩
  · rw [Reverb.stepFrame_cursor, machine_rvbMemSamples, base_eq]
  · exact BitVec.eq_of_toInt_eq ((congrFun hcells a).trans (frame_of_not_written _ _ _ _ ha))

/-- Settles O30: `RVB.STEPF` is defined as the step between the adapters. -/
theorem rvbStepfIsAdaptedStep : Obligations.RvbStepfIsAdaptedStep :=
  fun s => ⟨_, _, _, exec_rvbStep_frame _, exec_rvbStepf_frame s⟩

/-! ## The cursor (rule R209) -/

/-- A cursor inside a region of `span` cells from `base` on, `n` steps on. -/
theorem foldl_stepFrame_cursor (ins : List (S16 × S16)) : ∀ rv : Reverb, rv.base Config.machine ≤ rv.cursor →
    rv.cursor < Config.machine.rvbMemSamples → (ins.foldl (fun r y => (r.stepFrame Config.machine y.1 y.2).1) rv).cursor =
      rv.base Config.machine +
        (rv.cursor - rv.base Config.machine + ins.length) % (Config.machine.rvbMemSamples - rv.base Config.machine) := by
  induction ins with
  | nil =>
    intro rv hlo hhi
    rw [List.length_nil, Nat.add_zero, Nat.mod_eq_of_lt (by omega), List.foldl_nil]
    omega
  | cons y ys ih =>
    intro rv hlo hhi
    have hcursor := Reverb.stepFrame_cursor Config.machine rv y.1 y.2
    have hbase := Reverb.base_of_reg Config.machine _ rv (Reverb.stepFrame_reg Config.machine rv y.1 y.2)
    have hlt : rv.base Config.machine < Config.machine.rvbMemSamples := by rw [machine_rvbMemSamples]; exact rv.base_lt
    rw [List.foldl_cons, List.length_cons]
    split at hcursor
    · next hwrap =>
      rw [ih _ (by rw [hbase, hcursor]) (by rw [hcursor]; exact hlt), hbase, hcursor, Nat.sub_self, Nat.zero_add,
        show rv.cursor - rv.base Config.machine + (ys.length + 1) =
          ys.length + (Config.machine.rvbMemSamples - rv.base Config.machine) by omega,
        Nat.add_mod_right]
    · next hwrap =>
      rw [ih _ (by rw [hbase, hcursor]; omega) (by rw [hcursor]; omega), hbase, hcursor,
        show rv.cursor + 1 - rv.base Config.machine + ys.length = rv.cursor - rv.base Config.machine + (ys.length + 1) by
          omega]

/-- Settles O31: as many steps as cells are 0 modulo the region's size. -/
theorem reverbCursorReturns : Obligations.ReverbCursorReturns := by
  intro rv ins hlo hhi hlen
  rw [← machine_rvbMemSamples] at hhi hlen
  rw [foldl_stepFrame_cursor ins rv hlo hhi, hlen, Nat.add_mod_right, Nat.mod_eq_of_lt (by omega)]
  omega

end Sys2Proof.ReverbUnit
end

section
/-! The vibrato (43_vibrato.md rules R240 to R247): the smoothed depth table, the neutral index, and the phases, which
stay inside their tables. -/

open Sys2Proof Sys2Proof.Machine Sys2Proof.Spec

namespace Sys2Proof.Vibrato

/-! ## The depth table (rule R242) -/

theorem smooth_length (raw : List Byte) : (smooth Config.machine raw).length = raw.length := by simp [smooth]

/-- Entry `i` is the mean at `i`, the last one the mean at 0. -/
theorem tabAt_smooth (raw : List Byte) {i : Nat} (hi : i < raw.length) :
    tabAt (smooth Config.machine raw) i = smoothMean Config.machine raw (if i + 1 = raw.length then 0 else i) := by
  have hmean : ∀ j, j < raw.length →
      tabAt ((List.range raw.length).map (smoothMean Config.machine raw)) j = smoothMean Config.machine raw j := by
    intro j hj
    simp [tabAt, hj]
  rw [smooth, hmean 0 (by omega), tabAt, List.getD_eq_getElem?_getD]
  by_cases hlast : i + 1 = raw.length
  · rw [if_pos hlast, List.getElem?_set, if_pos (by omega), if_pos (by simpa using by omega)]; rfl
  · rw [if_neg hlast, List.getElem?_set_ne (by omega), ← List.getD_eq_getElem?_getD, ← tabAt, hmean i hi]

/-- The circular 3-tap mean, at an index of the table. -/
theorem smoothMean_eq (raw : List Byte) {i : Nat} (hi : i < raw.length) : smoothMean Config.machine raw i =
    (((Flt.ofNat (raw.getD ((i + raw.length - 1) % raw.length) 0).toNat).add (Flt.ofNat (raw.getD i 0).toNat)).add
      (Flt.ofNat (raw.getD ((i + 1) % raw.length) 0).toNat)).div (Flt.ofNat 3) := by
  simp only [smoothMean, byteToF, machine_num, numerics_ofNat, numerics_add, numerics_div, Nat.mod_eq_of_lt hi]

/-- Settles O33. -/
theorem depthTableSmoothed : Obligations.DepthTableSmoothed := by
  intro raw hne
  have hpos : 0 < raw.length := List.length_pos_of_ne_nil hne
  refine ⟨smooth_length raw, ?_, fun i hi => ?_⟩
  · rw [tabAt_smooth raw (by omega), tabAt_smooth raw hpos, if_pos (by omega), ite_self]
  · rw [tabAt_smooth raw (by omega), ← smoothMean_eq raw (by omega)]
    rcases hi with rfl | hi
    · rw [ite_self]
    · rw [if_neg (by omega)]

/-! ## The neutral index (rule R243) -/

/-- `i` is the lowest index among the nearest of the first `n` entries. -/
def NearestBefore (shape : List Byte) (n i : Nat) : Prop :=
  i < n ∧ (∀ j, j < n → Spec.dist shape i ≤ Spec.dist shape j) ∧ ∀ j, j < i → Spec.dist shape i < Spec.dist shape j

theorem neutralDist_eq {shape : List Byte} {i : Nat} (hi : i < shape.length) :
    neutralDist Config.machine shape[i] = Spec.dist shape i := by
  rw [neutralDist, machine_vibNeutral, Spec.dist, List.getD_eq_getElem _ _ hi, Nat.cast_ofNat]

variable {shape : List Byte} {n best : Nat}

/-- A strictly nearer entry becomes the best. -/
theorem NearestBefore.replace (h : NearestBefore shape n best) (hlt : Spec.dist shape n < Spec.dist shape best) :
    NearestBefore shape (n + 1) n := by
  obtain ⟨_, hmin, _⟩ := h
  refine ⟨by omega, fun j hj => ?_, fun j hj => hlt.trans_le (hmin j hj)⟩
  rcases Nat.lt_succ_iff_lt_or_eq.mp hj with hj | rfl
  · exact hlt.le.trans (hmin j hj)
  · exact le_rfl

/-- Any other entry leaves the best as it is. -/
theorem NearestBefore.keep (h : NearestBefore shape n best) (hle : Spec.dist shape best ≤ Spec.dist shape n) :
    NearestBefore shape (n + 1) best := by
  obtain ⟨hbest, hmin, hfirst⟩ := h
  refine ⟨by omega, fun j hj => ?_, hfirst⟩
  rcases Nat.lt_succ_iff_lt_or_eq.mp hj with hj | rfl
  · exact hmin j hj
  · exact hle

theorem neutralFrom_nearest (shape rest : List Byte) : ∀ n best, rest = shape.drop n → NearestBefore shape n best →
    n ≤ shape.length →
    NearestBefore shape shape.length (neutralFrom Config.machine rest n best (Spec.dist shape best)) := by
  induction rest with
  | nil =>
    intro n best hrest h hn
    have hlen : n = shape.length := le_antisymm hn (List.drop_eq_nil_iff.mp hrest.symm)
    exact hlen ▸ h
  | cons b t ih =>
    intro n best hrest h hn
    have hlt : n < shape.length := by
      by_contra hge
      rw [List.drop_eq_nil_of_le (by omega)] at hrest
      cases hrest
    rw [List.drop_eq_getElem_cons hlt] at hrest
    injection hrest with hb ht
    rw [neutralFrom, hb, neutralDist_eq hlt]
    split
    · next hnear => exact ih (n + 1) n ht (h.replace hnear) hlt
    · next hfar => exact ih (n + 1) best ht (h.keep (Nat.le_of_not_lt hfar)) hlt

theorem neutralIndex_nearest (hne : shape ≠ []) : IsNeutralIndex shape (neutralIndex Config.machine shape) := by
  cases shape with
  | nil => exact absurd rfl hne
  | cons b t =>
    have hstart : NearestBefore (b :: t) 1 0 :=
      ⟨Nat.one_pos, fun j hj => (Nat.lt_one_iff.mp hj) ▸ le_rfl, fun j hj => absurd hj (Nat.not_lt_zero j)⟩
    exact neutralFrom_nearest (b :: t) t 1 0 rfl hstart (by simp)

/-! ## `VIB.CONFIG` (rule R240) -/

theorem decide_length_pos {α : Type} (l : List α) : decide (1 ≤ l.length) = !l.isEmpty := by cases l <;> simp

/-- The table a configuration takes: the one supplied, or the default one. -/
theorem config_eq (v : Vib) (hasShape hasDepth : Bool) (shape raw : List Byte) (depth : Flt) :
    v.config Config.machine hasShape hasDepth shape raw depth =
      let sh := if hasShape = true ∧ shape ≠ [] then shape else vibDefaultTable
      let dep := hasDepth && !raw.isEmpty
      { shape := sh
        hasDepth := dep
        depthTab := if dep then smooth Config.machine raw else v.depthTab
        phase := Flt.ofNat (neutralIndex Config.machine sh)
        depthPhase := .zero
        depth := if depth.isFinite then depth else .zero } := by
  simp only [Vib.config, machine_num, numerics_ofNat, numerics_isFinite, machine_vibDefaultShape, decide_length_pos,
    Bool.and_eq_true, Bool.not_eq_true', List.isEmpty_eq_false_iff]
  rfl

theorem vibDefaultTable_ne_nil : vibDefaultTable ≠ [] :=
  List.ne_nil_of_length_pos (by rw [vibDefaultTable_length]; omega)

theorem chosen_ne_nil (hasShape : Bool) (shape : List Byte) :
    (if hasShape = true ∧ shape ≠ [] then shape else vibDefaultTable) ≠ [] := by
  split
  · next h => exact h.2
  · exact vibDefaultTable_ne_nil

/-- Settles O32. -/
theorem vibConfigResult : Obligations.VibConfigResult := by
  intro hasShape hasDepth s
  refine ⟨_, ?_, neutralIndex_nearest (chosen_ne_nil hasShape s.ports.shape)⟩
  rw [Block.exec_eq_effect (.vibConfig hasShape hasDepth) s rfl, Block.effect, config_eq]

/-! ## The phases (rule R244) -/

theorem wrap_eq (p : Flt) (len : Nat) : wrap p len = wrapPhase Config.machine p len := by
  simp only [wrap, wrapPhase, machine_num, numerics_ofNat, numerics_sub, numerics_mul, numerics_div, numerics_floor,
    numerics_isFinite, Bool.or_eq_true, Bool.not_eq_true', or_assoc]

theorem interpolate_eq (t : List Flt) (p : Flt) : interpolate t p = interp Config.machine t p := by
  simp only [interpolate, interp, tabAt, machine_num, numerics_ofNat, numerics_sub, numerics_mul, numerics_add,
    numerics_floorInt]

/-- The order of two values that are no NaN is total. -/
theorem lt_of_le_false {x y : Flt} (hx : x.isNaN = false) (hy : y.isNaN = false) (h : y.le x = false) : x.lt y = true := by
  simpa [Flt.le, Flt.lt, hx, hy] using h

theorem le_of_lt_false {x y : Flt} (hx : x.isNaN = false) (hy : y.isNaN = false) (h : y.lt x = false) : x.le y = true := by
  simpa [Flt.le, Flt.lt, hx, hy] using h

theorem zero_le_zero : Flt.zero.le .zero = true := (Numeric.le_iff_value rfl rfl).mpr le_rfl

/-- Whatever the sum, the wrapped phase lies inside the table. -/
theorem wrap_bounds (p : Flt) {len : Nat} (hlen : 1 ≤ len) :
    Flt.zero.le (wrap p len) = true ∧ (wrap p len).lt (Flt.ofNat len) = true := by
  rw [wrap_eq]
  rcases wrapPhase_cases Config.machine p len with h | ⟨hfin, hlo, hhi⟩
  · rw [h]
    exact ⟨zero_le_zero, Numeric.zero_lt_ofNat hlen⟩
  · have hnan := Flt.isNaN_of_finite _ hfin
    exact ⟨le_of_lt_false rfl hnan hlo, lt_of_le_false hnan (Numeric.ofNat_not_nan len) hhi⟩

theorem sub_not_finite {x : Flt} (hx : x.isFinite = false) (y : Flt) : (x.sub y).isFinite = false := by
  cases x with
  | nan => rfl
  | fin n e f => cases hx
  | inf n =>
    cases y with
    | nan | fin m e f => rfl
    | inf m =>
      simp only [Flt.sub, Flt.negate, Flt.add]
      split <;> rfl

/-- Where the sum is not finite the phase is 0. -/
theorem wrap_of_not_finite {p : Flt} (hp : p.isFinite = false) (len : Nat) : wrap p len = .zero := by
  rw [wrap]
  exact if_pos (.inl (sub_not_finite hp _))

theorem advance_eq (v : Vib) (r d : Flt) : v.advance Config.machine r d =
    { v with
      phase := wrap (v.phase.add r) v.shape.length
      depthPhase := if v.hasDepth then wrap (v.depthPhase.add d) v.depthTab.length else v.depthPhase } := by
  simp only [Vib.advance, wrap_eq, machine_num, numerics_add]

theorem output_eq (v : Vib) : v.output Config.machine =
    (((((interpolate (v.shape.map (fun b => Flt.ofNat b.toNat)) v.phase).div (Flt.ofNat 255)).sub Flt.half).mul
      (Flt.ofNat 2)).mul v.depth).mul
        (if v.hasDepth then (interpolate v.depthTab v.depthPhase).div (Flt.ofNat 255) else Flt.one) := by
  have hbyte : byteToF Config.machine = fun b => Flt.ofNat b.toNat := rfl
  simp only [Vib.output, Vib.scale, interpolate_eq, machine_num, numerics_ofNat, numerics_sub, numerics_mul, numerics_div,
    hbyte]

/-- Settles O34. -/
theorem vibTickResult : Obligations.VibTickResult := by
  intro s
  refine ⟨?_, wrap_bounds _, fun hdepth hlen => ?_, fun hsum => wrap_of_not_finite hsum _⟩
  · rw [Block.exec_eq_effect .vibTick s rfl]
    simp only [Block.effect, Vib.tick, output_eq, advance_eq]
  · rw [hdepth, if_pos rfl]
    exact wrap_bounds _ hlen

/-! ## The invariant of a unit (rules R28 and R240) -/

theorem phaseWf_zero {len : Nat} (hlen : 1 ≤ len) : phaseWf .zero len :=
  ⟨zero_le_zero, fun _ => Numeric.zero_lt_ofNat hlen⟩

theorem phaseWf_wrap (p : Flt) {len : Nat} (hlen : 1 ≤ len) : phaseWf (wrap p len) len :=
  ⟨(wrap_bounds p hlen).1, fun _ => (wrap_bounds p hlen).2⟩

theorem phaseWf_ofNat {i len : Nat} (hi : i < len) : phaseWf (Flt.ofNat i) len :=
  ⟨Numeric.zero_le_ofNat i, Numeric.ofNat_lt_ofNat hi⟩

theorem fresh_wf : (Vib.fresh Config.machine).wf := by
  have hlen : 1 ≤ vibDefaultTable.length := List.length_pos_of_ne_nil vibDefaultTable_ne_nil
  exact ⟨hlen, phaseWf_zero hlen, fun h => (nomatch h), rfl⟩

/-- A configuration makes a well-formed unit of any unit. -/
theorem config_wf (v : Vib) (hasShape hasDepth : Bool) (shape raw : List Byte) (depth : Flt) :
    (v.config Config.machine hasShape hasDepth shape raw depth).wf := by
  have hne := chosen_ne_nil hasShape shape
  obtain ⟨hindex, _, _⟩ := neutralIndex_nearest hne
  rw [config_eq]
  refine ⟨List.length_pos_of_ne_nil hne, phaseWf_ofNat hindex, fun hdepth => ?_, ?_⟩
  · obtain ⟨_, hraw⟩ := (Bool.and_eq_true _ _).mp hdepth
    have hlen : 1 ≤ raw.length := by simpa [Nat.one_le_iff_ne_zero] using hraw
    dsimp only at hdepth ⊢
    rw [if_pos hdepth, smooth_length]
    exact ⟨hlen, phaseWf_zero hlen⟩
  · dsimp only
    split
    · assumption
    · rfl

theorem tick_wf (v : Vib) (r d : Flt) (h : v.wf) : (v.tick Config.machine r d).1.wf := by
  obtain ⟨hshape, _, hdepth, hfin⟩ := h
  rw [Vib.tick, advance_eq]
  refine ⟨hshape, phaseWf_wrap _ hshape, fun hd => ?_, hfin⟩
  obtain ⟨hlen, _⟩ := hdepth hd
  dsimp only at hd ⊢
  rw [if_pos hd]
  exact ⟨hlen, phaseWf_wrap _ hlen⟩

end Sys2Proof.Vibrato
end

section
/-! The mixer's events (44_mixer.md rules R270 to R280): which voices a note-on builds and how they start, and what the
channel operations write. -/

open Sys2Proof Sys2Proof.Machine Sys2Proof.Spec

namespace Sys2Proof.MixerEvents

/-! ## Channel operations (rule R352) -/

variable {i : Instr} {s : State} {a : BitVec 8} {k : Nat} {f : Nat → State}

theorem exec_of_invalid (hwf : i.WellFormed) (heffect : Block.effect i s = Block.onChannel a f s) (ha : 15 < a.toNat) :
    exec i s = .next s := by
  rw [Block.exec_eq_effect i s hwf, heffect, Block.onChannel_of_invalid ha]

/-- Settles O36. -/
theorem invalidChannelIgnored : Obligations.InvalidChannelIgnored :=
  fun _ _ _ _ ha => ⟨exec_of_invalid rfl rfl ha, exec_of_invalid rfl rfl ha, exec_of_invalid rfl rfl ha,
    exec_of_invalid rfl rfl ha, exec_of_invalid rfl rfl ha⟩

theorem exec_mixNoteOn (key velocity : U7) (s : State) (ha : a.toNat = k) (hk : k < 16) :
    exec (.mixNoteOn a key velocity) s = .next (noteOn Config.machine s k key velocity) := by
  rw [Block.exec_eq_effect _ s rfl, Block.effect, Block.onChannel_of_valid ha hk]

theorem exec_mixProgram (program : U7) (s : State) (ha : a.toNat = k) (hk : k < 16) :
    exec (.mixProgram a program) s = .next (setChannel s k { channelAt s.ch k with program := program }) := by
  rw [Block.exec_eq_effect _ s rfl, Block.effect, Block.onChannel_of_valid ha hk]

theorem exec_mixBend (bend : U7) (s : State) (ha : a.toNat = k) (hk : k < 16) : exec (.mixBend a bend) s = .next
    (setChannel s k { channelAt s.ch k with bend := bendRatio Config.machine bend (channelPitchMult s k) }) := by
  rw [Block.exec_eq_effect _ s rfl, Block.effect, Block.onChannel_of_valid ha hk]

theorem exec_mixCc (number value : U7) (s : State) (ha : a.toNat = k) (hk : k < 16) :
    exec (.mixCc a number value) s = .next (controlChange Config.machine s k number value) := by
  rw [Block.exec_eq_effect _ s rfl, Block.effect, Block.onChannel_of_valid ha hk]

/-- Settles O42. -/
theorem programResult : Obligations.ProgramResult := fun _ _ p s ha hk => exec_mixProgram p s ha hk

/-! ## Note on: the matched Tones (rule R271) -/

theorem contains_iff (t : Tone) (key : U7) :
    t.contains key = true ↔ t.keyMin.toNat ≤ key.toNat ∧ key.toNat ≤ t.keyMax.toNat := by
  simp [Tone.contains]

/-- Settles O38. -/
theorem matchedTones : Obligations.MatchedTones := by
  intro p key hit
  have hhit : (fun t : Tone => t.contains key) = hit := funext fun t => (Bool.decide_and _ _).symm
  refine ⟨fun hsplit => ?_, fun hlayered => ?_, fun hsfx => ?_⟩
  · rw [matchTones, hsplit]
    dsimp only
    rw [hhit, List.take_one, List.head?_filter]
  · rw [matchTones, hlayered, ← hhit]
  · rw [matchTones, hsfx]

theorem mem_matchTones {p : Program} {key : U7} {t : Tone} (h : t ∈ matchTones p key) :
    p.mode ≠ .sfx ∧ t ∈ p.tones ∧ t.contains key = true := by
  unfold matchTones at h
  split at h
  case h_1 hmode => exact ⟨by rw [hmode]; decide, List.mem_filter.mp (List.mem_of_mem_take h)⟩
  case h_2 hmode => exact ⟨by rw [hmode]; decide, List.mem_filter.mp h⟩
  case h_3 => cases h

/-- Without a matching Tone a note-on changes nothing. -/
theorem noteOnProgram_of_nil (s : State) (k : Nat) (key velocity : U7) {p : Program} (h : matchTones p key = []) :
    noteOnProgram Config.machine s k key velocity p = s := by
  rw [noteOnProgram, h]
  rfl

/-- Settles O37. -/
theorem noteOnSilentCases : Obligations.NoteOnSilentCases := by
  intro a k key velocity s ha hk hsilent
  rw [exec_mixNoteOn key velocity s ha hk, noteOn]
  rcases hsilent with hbeyond | ⟨p, hp, hnone⟩
  · rw [List.getElem?_eq_none hbeyond]
  · rw [hp]
    refine congrArg _ (noteOnProgram_of_nil s k key velocity (List.eq_nil_iff_forall_not_mem.mpr fun t ht => ?_))
    obtain ⟨hmode, htone, hcontains⟩ := mem_matchTones ht
    obtain ⟨hlo, hhi⟩ := (contains_iff t key).mp hcontains
    rcases hnone with hsfx | hout
    · exact hmode hsfx
    · rcases hout t htone with h | h <;> omega

/-- With a matching Tone: cache, voices and last pitch. -/
theorem noteOnProgram_eq (s : State) (k : Nat) (key velocity : U7) {p : Program} (h : matchTones p key ≠ []) :
    noteOnProgram Config.machine s k key velocity p = { s with
      cache := (matchTones p key).foldl (newVoiceCache Config.machine s.src) s.cache
      voices := s.voices ++ (matchTones p key).map (newVoice Config.machine s.breath k (channelAt s.ch k) key velocity p)
      ch := s.ch.set k { channelAt s.ch k with lastPitch := Flt.ofNat key.toNat, hasLast := true } } := by
  have hempty : (matchTones p key).isEmpty = false := by simpa using h
  simp only [noteOnProgram, hempty, Adpcm.addVoices_cache, addVoices_voices, setChannel, u7ToF, machine_num,
    numerics_ofNat, Bool.false_eq_true, if_false]

/-- Settles O39. -/
theorem noteOnBuildsVoices : Obligations.NoteOnBuildsVoices := by
  intro a k key velocity s p ha hk hwf hp hmatch
  have hfind := fun o => Adpcm.find_foldl_newVoiceCache s.src (matchTones p key) o hwf
  refine ⟨(matchTones p key).foldl (newVoiceCache Config.machine s.src) s.cache, ?_, fun o d => Adpcm.find_foldl_of_find s.src _ hwf, fun o ho => ?_, fun t ht hnoise => ?_⟩
  · rw [exec_mixNoteOn key velocity s ha hk, noteOn, hp]
    exact congrArg _ (noteOnProgram_eq s k key velocity hmatch)
  · exact (hfind o).2 fun ⟨t, ht, hnoise, heq⟩ => ho t ht hnoise heq
  · exact (hfind t.sampleOffset).1 ⟨t, ht, hnoise, rfl⟩

/-! ## How a voice starts (rules R272 to R274) -/

/-- The base ratio of rule R272. -/
theorem baseRatio_eq (key root : U7) (fine : ℤ) : baseRatio Config.machine key root fine =
    Spec.exp2 (((Flt.ofNat key.toNat).sub ((Flt.ofNat root.toNat).sub ((Flt.ofInt fine).div (Flt.ofNat 20)))).div
      (Flt.ofNat 12)) := by
  simp only [baseRatio, u7ToF, machine_num, numerics_exp2, numerics_div, numerics_sub, numerics_ofNat, numerics_ofInt]
  rfl

/-- `exp2` of a quotient of a zero is 1 (rule R11). -/
theorem exp2_of_eq_zero {x : Flt} (h : x.eq .zero = true) : Spec.exp2 x = .one := if_pos h

/-- A zero over a non-zero number is a zero. -/
theorem zero_div {x y : Flt} (hx : x.isFinite = true) (hvalue : value x = 0) (hy : y.isFinite = true) (hsig : y.sig ≠ 0) :
    (x.div y).eq .zero = true := by
  have hzero : x.sig = 0 := by
    rw [Numeric.value_eq_sig hx, mul_eq_zero, Int.cast_eq_zero, or_iff_left (zpow_ne_zero _ (by norm_num))] at hvalue
    cases hn : x.neg <;> simpa [hn, signed] using hvalue
  cases x with
  | fin n e f =>
    cases y with
    | fin m e' f' =>
      rw [Flt.div]
      simp only [hzero, hsig, if_false, Nat.zero_shiftLeft, Nat.zero_div, Flt.round]
      exact (Numeric.eq_iff_value rfl rfl).mpr ((Numeric.value_signed_zero _).trans Numeric.value_zero.symm)
    | nan | inf => cases hy
  | nan | inf => cases hx

/-- At the root key without fine tuning the base ratio is 1. -/
theorem baseRatio_root (root : U7) : baseRatio Config.machine root root 0 = .one := by
  have hfine : (Flt.ofInt 0).div (Flt.ofNat 20) = .zero := by decide +kernel
  have hroot : (Flt.ofNat root.toNat).isFinite = true ∧ value (Flt.ofNat root.toNat) = root.toNat :=
    Numeric.ofNat_exact (by omega)
  obtain ⟨hfin, hvalue⟩ := hroot
  obtain ⟨hfin', hvalue'⟩ : ((Flt.ofNat root.toNat).sub .zero).isFinite = true ∧
      value ((Flt.ofNat root.toNat).sub .zero) = value (Flt.ofNat root.toNat) := by
    refine Numeric.exact_of_isRounded ?_ hfin rfl
    have h := Numeric.sub_isRounded hfin (y := .zero) rfl
    rwa [Numeric.value_zero, sub_zero] at h
  obtain ⟨hdiff, hzero⟩ : ((Flt.ofNat root.toNat).sub ((Flt.ofNat root.toNat).sub .zero)).isFinite = true ∧
      value ((Flt.ofNat root.toNat).sub ((Flt.ofNat root.toNat).sub .zero)) = 0 := by
    refine Numeric.exact_of_isRounded ?_ (w := .zero) rfl Numeric.value_zero
    have h := Numeric.sub_isRounded hfin hfin'
    rwa [hvalue', sub_self] at h
  rw [baseRatio_eq, hfine]
  exact exp2_of_eq_zero (zero_div hdiff hzero (Numeric.ofNat_exact (by norm_num)).1 (by decide +kernel))

/-- Where a glide starts (rule R273). -/
abbrev Glides (c : ChannelState) (key : U7) : Prop :=
  c.portaOn = true ∧ c.hasLast = true ∧ c.lastPitch.eq (Flt.ofNat key.toNat) = false ∧
    1 ≤ Config.portaSamplesOpen c.portaTime

theorem portaSetup_eq (c : ChannelState) (key : U7) : portaSetup Config.machine c key =
    let d := (c.lastPitch.sub (Flt.ofNat key.toNat)).div (Flt.ofNat 12)
    if Glides c key then
      { glide := true
        porta := Spec.exp2 d
        portaStep := Spec.exp2 ((Flt.zero.sub d).div (Flt.ofNat (Config.portaSamplesOpen c.portaTime))) }
    else { glide := false, porta := .one, portaStep := .one } := by
  simp only [portaSetup, Bool.and_eq_true, Bool.not_eq_true', decide_eq_true_eq, and_assoc]
  simp only [u7ToF, machine_num, machine_portaSamples, numerics_exp2, numerics_div, numerics_sub, numerics_ofNat, Glides]
  rfl

/-- Without modulation a voice has a fresh vibrato unit at rest. -/
theorem vibSetup_of_not {t : Tone} (h : t.useModulation = false) (b : SMap BreathTable) (c : ChannelState) (p : Program) :
    vibSetup Config.machine b c p t =
      { vib := Vib.fresh Config.machine, vibOn := false, vibRate := .zero, vibDrate := .zero } := by
  rw [vibSetup, h]
  rfl

/-- A depth table that is absent counts as one of length 0. -/
theorem isSome_and_not_isEmpty (raw : Option (List Byte)) :
    (raw.isSome && !(raw.getD []).isEmpty) = decide (raw.getD [] ≠ []) := by
  cases raw with
  | none => rfl
  | some l => cases l <;> simp

/-- The unit of a voice with modulation (rule R274). -/
theorem vibSetup_of_modulation {t : Tone} (h : t.useModulation = true) (b : SMap BreathTable) (c : ChannelState)
    (p : Program) : vibSetup Config.machine b c p t =
      let tables := (SMap.find b (if t.useProgramBreath then p.defaultBreath else t.breath)).getD
        { shape := [], depthRaw := none }
      let shape := if tables.shape ≠ [] then tables.shape else vibDefaultTable
      let raw := tables.depthRaw.getD []
      let depth := Config.vibDepthSemisOpen c.modDepth
      let hz := Config.vibRateHzOpen c.vibRate
      { vib :=
          { shape := shape
            hasDepth := decide (raw ≠ [])
            depthTab := if raw ≠ [] then smooth Config.machine raw else []
            phase := Flt.ofNat (neutralIndex Config.machine shape)
            depthPhase := .zero
            depth := if depth.isFinite then depth else .zero }
        vibOn := true
        vibRate := ((Flt.ofNat shape.length).mul hz).div (Flt.ofNat 44100)
        vibDrate := if raw ≠ [] then ((Flt.ofNat raw.length).mul hz).div (Flt.ofNat 44100) else .zero } := by
  rw [vibSetup, if_pos h]
  simp only [Vibrato.config_eq, breathTable, tableRate, isSome_and_not_isEmpty, machine_num, machine_sampleRate,
    machine_vibDepthSemis, machine_vibRateHz, numerics_ofNat, numerics_mul, numerics_div, true_and, decide_eq_true_eq]
  congr 1
  exact ite_congr rfl (fun h => by rw [if_pos h, Vibrato.smooth_length]) (fun _ => rfl)

/-- A voice's vibrato unit is well-formed whether its Tone uses modulation or not. -/
theorem vibSetup_wf (b : SMap BreathTable) (c : ChannelState) (p : Program) (t : Tone) :
    (vibSetup Config.machine b c p t).vib.wf := by
  unfold vibSetup
  split
  · exact Vibrato.config_wf _ _ _ _ _ _
  · exact Vibrato.fresh_wf

theorem shape_ne_nil (l : List Byte) : (if l ≠ [] then l else vibDefaultTable) ≠ [] := by
  simpa using Vibrato.chosen_ne_nil true l

/-- Settles O40. -/
theorem newVoiceInitialState : Obligations.NewVoiceInitialState := by
  intro b k c key velocity p t v d glides
  have hporta : portaSetup Config.machine c key = if glides then ⟨true, Spec.exp2 d,
      Spec.exp2 ((Flt.zero.sub d).div (Flt.ofNat (Config.portaSamplesOpen c.portaTime)))⟩ else ⟨false, .one, .one⟩ :=
    portaSetup_eq c key
  have hglide : v.glide = (portaSetup Config.machine c key).glide := rfl
  have hmult : v.porta = (portaSetup Config.machine c key).porta := rfl
  have hstep : v.portaStep = (portaSetup Config.machine c key).portaStep := rfl
  have hvib : v.vib = (vibSetup Config.machine b c p t).vib := rfl
  have hon : v.vibOn = (vibSetup Config.machine b c p t).vibOn := rfl
  have hrate : v.vibRate = (vibSetup Config.machine b c p t).vibRate := rfl
  have hdrate : v.vibDrate = (vibSetup Config.machine b c p t).vibDrate := rfl
  refine ⟨Env.setPhase_reg _ _ _, Env.setPhase_level _ _ _, Env.setPhase_phase _ _ _, Env.setPhase_counter _ _ _,
    Envelope.keyOn_wf _, rfl, rfl, rfl, rfl, rfl, rfl, rfl, rfl, rfl, rfl, rfl, rfl, baseRatio_eq _ _ _, ?_, ?_, ?_, rfl,
    fun hoff => ?_, fun hmod => ?_, ?_⟩
  · rw [hglide, hporta]
    split
    · next h => exact (decide_eq_true h).symm
    · next h => exact (decide_eq_false h).symm
  · rw [hmult, hporta, apply_ite Glide.porta]
  · rw [hstep, hporta, apply_ite Glide.portaStep]
  · rw [hvib, hon, hrate, hdrate, vibSetup_of_not hoff]
    exact ⟨rfl, rfl, rfl, rfl⟩
  · have hwf := vibSetup_wf b c p t
    rw [hvib, hon, hrate, hdrate]
    refine ⟨by rw [vibSetup_of_modulation hmod], hwf, ⟨_, Vibrato.neutralIndex_nearest (shape_ne_nil _), ?_⟩, ?_, ?_⟩
    all_goals rw [vibSetup_of_modulation hmod]
  · rintro rfl hfine
    have hbase : v.base = baseRatio Config.machine t.root t.root t.fine := rfl
    rw [hbase, hfine, baseRatio_root]

/-! ## Bend (rule R277) -/

/-- The exponent of the bend ratio. -/
def bendExponent (b : U7) (pm : Flt) : Flt :=
  ((((Flt.ofNat b.toNat).sub (Flt.ofNat 64)).div (Flt.ofNat 64)).mul pm).div (Flt.ofNat 12)

theorem bendRatio_eq (b : U7) (pm : Flt) : bendRatio Config.machine b pm =
    if (Spec.exp2 (bendExponent b pm)).isFinite = true ∧ Flt.zero.lt (Spec.exp2 (bendExponent b pm)) = true then
      Spec.exp2 (bendExponent b pm) else .one := by
  simp only [bendRatio, u7ToF, machine_num, numerics_exp2, numerics_div, numerics_mul, numerics_sub, numerics_ofNat,
    numerics_isFinite, Bool.and_eq_true]
  rfl

theorem zero_lt_one : Flt.zero.lt .one = true :=
  (Numeric.lt_iff_value rfl rfl).mpr (by rw [Numeric.value_zero, Numeric.value_one]; exact one_pos)

/-- The guard of rule R277: whatever the product, the ratio is finite and positive. -/
theorem bendRatio_wf (b : U7) (pm : Flt) :
    (bendRatio Config.machine b pm).isFinite = true ∧ Flt.zero.lt (bendRatio Config.machine b pm) = true := by
  rw [bendRatio_eq]
  split
  · assumption
  · exact ⟨rfl, zero_lt_one⟩

/-- A product with a zero is a zero. -/
theorem mul_of_value_zero {x y : Flt} (hx : x.isFinite = true) (hy : y.isFinite = true) (h : value x = 0 ∨ value y = 0) :
    (x.mul y).isFinite = true ∧ value (x.mul y) = 0 := by
  have hround := Numeric.mul_isRounded hx hy
  rw [mul_eq_zero.mpr h] at hround
  exact Numeric.exact_of_isRounded hround (w := .zero) rfl Numeric.value_zero

/-- With a zero position or a zero multiplier the ratio is 1. -/
theorem bendRatio_of_zero {b : U7} {pm : Flt}
    (hb : (((Flt.ofNat b.toNat).sub (Flt.ofNat 64)).div (Flt.ofNat 64)).isFinite = true) (hpm : pm.isFinite = true)
    (h : value (((Flt.ofNat b.toNat).sub (Flt.ofNat 64)).div (Flt.ofNat 64)) = 0 ∨ value pm = 0) :
    bendRatio Config.machine b pm = .one := by
  obtain ⟨hfin, hzero⟩ := mul_of_value_zero hb hpm h
  have hexp : Spec.exp2 (bendExponent b pm) = .one :=
    exp2_of_eq_zero (zero_div hfin hzero (Numeric.ofNat_exact (by norm_num)).1 (by decide +kernel))
  rw [bendRatio_eq, hexp, ite_self]

/-- Over 64: the rounding of the exact quotient. -/
theorem div_64_isRounded {x : Flt} (hx : x.isFinite = true) : IsRounded (value x / 64) (x.div (Flt.ofNat 64)) := by
  have hconst : Flt.ofNat 64 = .fin false 1029 0 := by decide +kernel
  have hscale : (Flt.fin false 1029 0).scale = -46 := rfl
  rw [hconst, Numeric.div_two_pow hx (by decide), hscale]
  convert Numeric.round_isRounded x.neg (x.sig * 2 ^ 58) (x.scale - -46 - 110) using 1
  rw [Numeric.value_eq_sig hx, Numeric.signed_cast, Numeric.signed_cast, sub_sub, sub_eq_add_neg, zpow_add₀ (by norm_num)]
  push_cast
  norm_num
  ring

/-- The position of the wheel is finite. -/
theorem wheel_isFinite (b : U7) : (((Flt.ofNat b.toNat).sub (Flt.ofNat 64)).div (Flt.ofNat 64)).isFinite = true := by
  have hb := b.isLt
  obtain ⟨hbfin, hbvalue⟩ := Numeric.ofNat_exact (n := b.toNat) (by omega)
  obtain ⟨hcfin, hcvalue⟩ := Numeric.ofNat_exact (n := 64) (by norm_num)
  have hround := Numeric.sub_isRounded hbfin hcfin
  have hint : (value (Flt.ofNat b.toNat) - value (Flt.ofNat 64)) = (((b.toNat : ℤ) - 64 : ℤ) : ℚ) := by
    rw [hbvalue, hcvalue]; push_cast; ring
  obtain ⟨w, hw, hwv⟩ := Numeric.exists_value (m := (b.toNat : ℤ) - 64) (k := 0) (abs_le.mpr ⟨by omega, by omega⟩)
    (by norm_num) (by norm_num)
  rw [zpow_zero, mul_one] at hwv
  rw [hint] at hround
  obtain ⟨hfin, hvalue⟩ := Numeric.exact_of_isRounded hround hw hwv
  have hquot := div_64_isRounded hfin
  have hbound : |(b.toNat : ℤ) - 64| ≤ 64 := abs_le.mpr ⟨by omega, by omega⟩
  rw [hvalue] at hquot
  refine (Numeric.near_of_isRounded hquot ?_).1
  rw [abs_div, abs_of_pos (by norm_num : (0 : ℚ) < 64), div_le_iff₀ (by norm_num), ← Int.cast_abs]
  exact_mod_cast hbound.trans (by norm_num)

theorem wheel_centre : ((Flt.ofNat (64 : U7).toNat).sub (Flt.ofNat 64)).div (Flt.ofNat 64) = .zero := by decide +kernel

theorem channelPitchMult_eq (s : State) (k : Nat) : channelPitchMult s k = pitchMult s k := by
  unfold channelPitchMult pitchMult
  split <;> next h => rw [h]; rfl

/-- Settles O43. -/
theorem bendResult : Obligations.BendResult := by
  intro a k b s ha hk
  obtain ⟨hfin, hpos⟩ := bendRatio_wf b (pitchMult s k)
  refine ⟨bendRatio Config.machine b (pitchMult s k), ?_, bendRatio_eq b _, hfin, hpos, fun hb hpm => ?_, fun hbeyond => ?_⟩
  · rw [exec_mixBend b s ha hk, channelPitchMult_eq]
    rfl
  · subst hb
    exact bendRatio_of_zero (wheel_isFinite _) hpm (.inl (by rw [wheel_centre, Numeric.value_zero]))
  · have hpm : pitchMult s k = .zero := by rw [pitchMult, List.getElem?_eq_none hbeyond]; rfl
    rw [hpm]
    exact bendRatio_of_zero (wheel_isFinite _) rfl (.inr Numeric.value_zero)

/-! ## Controllers (rules R278 to R280) -/

/-- A number beside the fixed ones: the OPEN vibrato-rate number, or nothing. -/
theorem controlChange_of_unknown (s : State) (k : Nat) {n : U7} (v : U7)
    (h : n.toNat ∉ [1, 5, 7, 10, 11, 64, 65, 91, 121]) : controlChange Config.machine s k n v =
      if Config.ccVibRateOpen = some n then setChannel s k { channelAt s.ch k with vibRate := v } else s := by
  simp only [List.mem_cons, List.not_mem_nil, or_false, not_or] at h
  unfold controlChange
  dsimp only
  split
  case h_10 => rfl
  all_goals omega

/-- Settles O44. -/
theorem controllerWrites : Obligations.ControllerWrites := by
  intro a k v s ha hk
  have hcc := fun n => exec_mixCc (a := a) n v s ha hk
  refine ⟨hcc 7, hcc 11, hcc 10, hcc 91, hcc 1, hcc 5, hcc 65, fun n hn => (hcc n).trans ?_⟩
  exact congrArg _ (controlChange_of_unknown s k v hn)

theorem pendingOn_iff (v : Voice) (k : Nat) :
    v.pendingOn k = true ↔ v.active = true ∧ v.channel = k ∧ v.releasePending = true := by
  simp [Voice.pendingOn, and_assoc]

/-- Releasing the pedal. -/
theorem setSustain_off (s : State) (k : Nat) : setSustain Config.machine s k false = { s with
    ch := s.ch.set k { channelAt s.ch k with sustain := false }
    voices := s.voices.map (fun x =>
      if x.active = true ∧ x.channel = k ∧ x.releasePending = true then
        { x with releasePending := false, env := Env.keyOff Config.machine x.env }
      else x) } := by
  simp only [setSustain, setChannel, Bool.false_eq_true, if_false, pendingOn_iff, Voice.fireRelease]

theorem controlChange_sustain (s : State) (k : Nat) (v : U7) :
    controlChange Config.machine s k 64 v = setSustain Config.machine s k (switchOn v) := rfl

theorem controlChange_reset (s : State) (k : Nat) (v : U7) :
    controlChange Config.machine s k 121 v = resetControllers Config.machine s k := rfl

/-- Settles O45. -/
theorem sustainPedal : Obligations.SustainPedal := by
  intro a k v s ha hk
  rw [exec_mixCc 64 v s ha hk, controlChange_sustain]
  refine ⟨fun hon => ?_, fun hoff => ?_⟩
  · rw [switchOn, decide_eq_true hon]
    rfl
  · rw [switchOn, decide_eq_false (by omega), setSustain_off]

/-- The record of a channel just written; a number beyond the list is written nowhere. -/
theorem set_channelAt_set (ch : List ChannelState) (k : Nat) (c : ChannelState) (g : ChannelState → ChannelState) :
    (ch.set k c).set k (g (channelAt (ch.set k c) k)) = ch.set k (g c) := by
  rcases Nat.lt_or_ge k ch.length with hk | hk
  · rw [channelAt_set_self ch k c hk, List.set_set]
  · simp only [List.set_eq_of_length_le hk]

/-- Settles O46. -/
theorem controllerReset : Obligations.ControllerReset := by
  intro a k v s ha hk
  rw [exec_mixCc 121 v s ha hk, controlChange_reset, resetControllers, setSustain_off, setChannel_ch,
    set_channelAt_set s.ch k _ (fun c => { c with sustain := false })]
  simp only [setChannel, ChannelState.resetControllers, machine_chDefault, chDefaults]

end Sys2Proof.MixerEvents
end

section
/-! Rendering (44_mixer.md rules R281 to R288 and R291): what a run of samples keeps, that it splits, and what one sample
of one voice adds. -/

open Sys2Proof Sys2Proof.Machine Sys2Proof.Spec

namespace Sys2Proof.Rendering

/-! ## The operation -/

/-- The samples a render of the state makes. -/
def rendered (s : State) (n : Nat) : MixState × List Frame :=
  renderSamples Config.machine s.cache n { ch := s.ch, voices := purge s.voices }

/-- The mixer's four buffers, from frames. -/
def withFrames (o : OutBuffers) (fs : List Frame) : OutBuffers :=
  { o with
    dryL := fs.map Frame.dryL
    dryR := fs.map Frame.dryR
    wetL := fs.map Frame.wetL
    wetR := fs.map Frame.wetR }

theorem rendered_ch (s : State) (n : Nat) : (rendered s n).1.ch = s.ch.map (lfoStep^[n]) :=
  renderSamples_ch Config.machine s.cache n _

theorem render_eq (s : State) (n : Nat) : render Config.machine n s = { s with
    ch := s.ch.map (lfoStep^[n])
    voices := (rendered s n).1.voices
    out := withFrames s.out (rendered s n).2 } := by
  rw [← rendered_ch]
  rfl

theorem exec_mixRender (s : State) (n : BitVec 24) : exec (.mixRender n) s = .next { s with
    ch := s.ch.map (lfoStep^[n.toNat])
    voices := (rendered s n.toNat).1.voices
    out := withFrames s.out (rendered s n.toNat).2
    result := .rendered } := by
  rw [Block.exec_eq_effect (.mixRender n) s rfl]
  simp only [Block.effect, render_eq]

/-! ## What a voice keeps for life (rule R389) -/

theorem identity_step (m : SMap DecodedSample) (c : ChannelState) (lfo : Flt) (v : Voice) (acc : Frame) :
    identity (v.step Config.machine m c lfo acc).1 = identity v := by
  obtain ⟨g, p, ph, dph, act, pos, na, ns, st, h⟩ := Voice.step_frame Config.machine m c lfo v acc
  rw [h]
  simp only [identity, Env.tick_reg]

theorem stepVoices_cons (m : SMap DecodedSample) (ch : List ChannelState) (lfo : Nat → Flt) (v : Voice) (vs : List Voice)
    (acc : Frame) (h : v.active = true) : stepVoices Config.machine m ch lfo (v :: vs) acc =
      let r := v.step Config.machine m (channelAt ch v.channel) (lfo v.channel) acc
      (r.1 :: (stepVoices Config.machine m ch lfo vs r.2).1, (stepVoices Config.machine m ch lfo vs r.2).2) := by
  simp only [stepVoices, h, if_true]

variable (m : SMap DecodedSample) (ch : List ChannelState) (lfo : Nat → Flt)

theorem stepVoices_identity (vs : List Voice) : ∀ acc,
    (stepVoices Config.machine m ch lfo vs acc).1.map identity = vs.map identity := by
  induction vs with
  | nil => exact fun _ => rfl
  | cons v vs ih =>
    intro acc
    cases hactive : v.active with
    | false => rw [stepVoices_inactive _ _ _ _ _ _ _ hactive, List.map_cons, List.map_cons, ih]
    | true => rw [stepVoices_cons _ _ _ _ _ _ hactive, List.map_cons, List.map_cons, ih, identity_step]

theorem renderSamples_identity (n : Nat) : ∀ x : MixState,
    (renderSamples Config.machine m n x).1.voices.map identity = x.voices.map identity := by
  induction n with
  | zero => exact fun _ => rfl
  | succ n ih => exact fun x => (ih _).trans (stepVoices_identity m _ _ _ _)

/-- Settles O47. -/
theorem renderResult : Obligations.RenderResult := by
  intro n s
  have hlen := renderSamples_length Config.machine s.cache n.toNat { ch := s.ch, voices := purge s.voices }
  refine ⟨_, _, _, _, _, exec_mixRender s n, ?_, ?_, ?_, ?_, renderSamples_identity s.cache n.toNat _, fun hn => ?_⟩
  · exact (List.length_map _).trans hlen
  · exact (List.length_map _).trans hlen
  · exact (List.length_map _).trans hlen
  · exact (List.length_map _).trans hlen
  · subst hn
    rfl

/-! ## Silence (rule R366) -/

theorem renderSamples_of_nil (n : Nat) : ∀ ch : List ChannelState,
    (renderSamples Config.machine m n { ch := ch, voices := [] }).1.voices = [] ∧
      (renderSamples Config.machine m n { ch := ch, voices := [] }).2 = List.replicate n Frame.silent := by
  induction n with
  | zero => exact fun _ => ⟨rfl, rfl⟩
  | succ n ih =>
    intro ch
    obtain ⟨hvoices, hframes⟩ := ih (renderSample Config.machine m { ch := ch, voices := [] }).1.ch
    exact ⟨hvoices, congrArg (Frame.silent :: ·) hframes⟩

/-- Settles O52: the purge leaves no voice. -/
theorem idleRenderIsSilent : Obligations.IdleRenderIsSilent := by
  intro n s hidle
  have hpurge : purge s.voices = [] := List.filter_eq_nil_iff.mpr fun v hv => by simp [hidle v hv]
  obtain ⟨hvoices, hframes⟩ := renderSamples_of_nil s.cache n.toNat s.ch
  rw [exec_mixRender, rendered, hpurge, hvoices, hframes]
  simp only [withFrames, List.map_replicate, Frame.silent]

/-! ## Splitting a render (rules R281 and R338) -/

theorem renderSamples_add (k n : Nat) : ∀ x : MixState, renderSamples Config.machine m (k + n) x =
    let a := renderSamples Config.machine m k x
    let b := renderSamples Config.machine m n a.1
    (b.1, a.2 ++ b.2) := by
  induction k with
  | zero => intro x; rw [Nat.zero_add]; rfl
  | succ k ih =>
    intro x
    rw [Nat.succ_add]
    simp only [renderSamples, ih, List.cons_append]

/-- Inactive voices are passed over: purging them first changes neither the frame nor the active voices. -/
theorem stepVoices_purge (vs : List Voice) : ∀ acc,
    (stepVoices Config.machine m ch lfo (purge vs) acc).2 = (stepVoices Config.machine m ch lfo vs acc).2 ∧
      purge (stepVoices Config.machine m ch lfo (purge vs) acc).1 = purge (stepVoices Config.machine m ch lfo vs acc).1 := by
  induction vs with
  | nil => exact fun _ => ⟨rfl, rfl⟩
  | cons v vs ih =>
    intro acc
    cases hactive : v.active with
    | false =>
      have hskip : purge (v :: vs) = purge vs := List.filter_cons_of_neg (by simp [hactive])
      have hout : purge (v :: (stepVoices Config.machine m ch lfo vs acc).1) =
          purge (stepVoices Config.machine m ch lfo vs acc).1 := List.filter_cons_of_neg (by simp [hactive])
      rw [hskip, stepVoices_inactive _ _ _ _ _ _ _ hactive, hout]
      exact ih acc
    | true =>
      have hkeep : purge (v :: vs) = v :: purge vs := List.filter_cons_of_pos (by simp [hactive])
      rw [hkeep, stepVoices_cons _ _ _ _ _ _ hactive, stepVoices_cons _ _ _ _ _ _ hactive]
      obtain ⟨hframe, hvoices⟩ := ih (v.step Config.machine m (channelAt ch v.channel) (lfo v.channel) acc).2
      refine ⟨hframe, ?_⟩
      simp only [purge, List.filter_cons] at hvoices ⊢
      rw [hvoices]

/-- Two mixer states that differ in inactive voices only. -/
structure SameActive (x y : MixState) : Prop where
  ch : x.ch = y.ch
  voices : purge x.voices = purge y.voices

variable {m} {x y : MixState}

theorem SameActive.renderSample (h : SameActive x y) :
    SameActive (renderSample Config.machine m x).1 (renderSample Config.machine m y).1 ∧
      (Machine.renderSample Config.machine m x).2 = (Machine.renderSample Config.machine m y).2 := by
  obtain ⟨hframex, hvoicesx⟩ := stepVoices_purge m (x.ch.map (fun c => { c with lfoPhase := Config.machine.lfoAdvance c }))
    (fun k => Config.machine.chanLfoRatio (channelAt x.ch k)) x.voices Frame.silent
  obtain ⟨hframey, hvoicesy⟩ := stepVoices_purge m (y.ch.map (fun c => { c with lfoPhase := Config.machine.lfoAdvance c }))
    (fun k => Config.machine.chanLfoRatio (channelAt y.ch k)) y.voices Frame.silent
  rw [h.ch, h.voices] at hframex hvoicesx
  simp only [Machine.renderSample, h.ch]
  exact ⟨⟨rfl, hvoicesx.symm.trans hvoicesy⟩, hframex.symm.trans hframey⟩

theorem SameActive.renderSamples (n : Nat) : ∀ {x y : MixState}, SameActive x y →
    SameActive (renderSamples Config.machine m n x).1 (renderSamples Config.machine m n y).1 ∧
      (Machine.renderSamples Config.machine m n x).2 = (Machine.renderSamples Config.machine m n y).2 := by
  induction n with
  | zero => exact fun h => ⟨h, rfl⟩
  | succ n ih =>
    intro x y h
    obtain ⟨hnext, hframe⟩ := h.renderSample (m := m)
    obtain ⟨hrest, hframes⟩ := ih hnext
    refine ⟨hrest, ?_⟩
    simp only [Machine.renderSamples, hframe, hframes]

theorem purge_purge (vs : List Voice) : purge (purge vs) = purge vs := by
  simp only [purge, List.filter_filter, Bool.and_self]

/-- A render of `k + n` goes on where the render of `k` ended; the purge in between does not show. -/
theorem rendered_add (s : State) (k n : Nat) {x : MixState} (hx : SameActive (rendered s k).1 x) :
    (rendered s (k + n)).2 = (rendered s k).2 ++ (renderSamples Config.machine s.cache n x).2 ∧
      SameActive (rendered s (k + n)).1 (renderSamples Config.machine s.cache n x).1 := by
  have hsplit : rendered s (k + n) = ((renderSamples Config.machine s.cache n (rendered s k).1).1,
      (rendered s k).2 ++ (renderSamples Config.machine s.cache n (rendered s k).1).2) :=
    renderSamples_add s.cache k n { ch := s.ch, voices := purge s.voices }
  obtain ⟨hend, hframes⟩ := hx.renderSamples (m := s.cache) n
  rw [hsplit, ← hframes]
  exact ⟨rfl, hend⟩

/-- Settles O48. -/
theorem renderSplits : Obligations.RenderSplits := by
  intro k n s t u w hsize ht hu hw
  have htoNat : (k + n).toNat = k.toNat + n.toNat := by rw [BitVec.toNat_add, Nat.mod_eq_of_lt hsize]
  rw [exec_mixRender, Host.Outcome.next.injEq] at ht hu hw
  subst ht hu hw
  have hsame : SameActive (rendered s k.toNat).1
      { ch := s.ch.map (lfoStep^[k.toNat]), voices := purge (rendered s k.toNat).1.voices } :=
    ⟨rendered_ch s k.toNat, (purge_purge _).symm⟩
  obtain ⟨hframes, hend⟩ := rendered_add s k.toNat n.toNat hsame
  have hmap (f : Frame → Flt) := (congrArg (List.map f) hframes).trans List.map_append
  rw [htoNat]
  refine ⟨hmap _, hmap _, hmap _, hmap _, ?_, hend.voices⟩
  rw [List.map_map, ← Function.iterate_add, Nat.add_comm]

end Sys2Proof.Rendering
end

section
/-! One output sample of one voice (44_mixer.md rules R282 to R288): how a sounding voice advances and what it adds, and
how a voice retires. -/

open Sys2Proof Sys2Proof.Machine Sys2Proof.Spec

namespace Sys2Proof.Rendering

/-! ## The steps of a sounding voice (rule R282) -/

/-- A voice behind the envelope, portamento and vibrato steps. -/
def advanced (v : Voice) : Voice :=
  { v with
    env := Env.tick Config.machine v.env
    glide := (glideAfter v).1
    porta := (glideAfter v).2
    vib := (vibAfter v).1 }

theorem glideDone_iff (p step : Flt) : glideDone Config.machine p step = true ↔ p.isFinite = false ∨ step.eq .one = true ∨
    (Flt.one.lt step = true ∧ Flt.one.le p = true) ∨ (step.lt .one = true ∧ p.le .one = true) := by
  simp only [glideDone, machine_num, numerics_isFinite, Bool.or_eq_true, Bool.and_eq_true, Bool.not_eq_true', or_assoc]

theorem glideStep_eq (v : Voice) :
    v.glideStep Config.machine = { v with glide := (glideAfter v).1, porta := (glideAfter v).2 } := by
  simp only [Voice.glideStep, glideAfter, glideDone_iff, machine_num, numerics_mul]
  by_cases hglide : v.glide = true
  · simp only [hglide, if_true, Bool.true_eq_false, if_false]
    split <;> rfl
  · have hoff : v.glide = false := Bool.eq_false_of_not_eq_true hglide
    have hsame : v = { v with glide := false } := by rw [← hoff]
    simp only [if_neg hglide, if_pos hoff]
    exact hsame

theorem vibStep_eq (v : Voice) :
    v.vibStep Config.machine = ({ v with vib := (vibAfter v).1 }, (vibAfter v).2) := by
  simp only [Voice.vibStep, vibAfter, machine_num, numerics_exp2, numerics_div, numerics_ofNat]
  by_cases hon : v.vibOn = true
  · simp only [if_pos hon]
    rfl
  · simp only [if_neg hon]

/-- The playback increment under the channel's own modulation ratio. -/
theorem playbackIncr_eq (v : Voice) (c : ChannelState) :
    playbackIncr Config.machine v.base (glideAfter v).2 (vibAfter v).2 c.bend (Config.chanLfoRatioOpen c) =
      increment v c := by
  simp only [playbackIncr, increment, machine_num, numerics_mul, numerics_isFinite, Bool.or_eq_true, Bool.not_eq_true']

variable (m : SMap DecodedSample) (c : ChannelState) (ratio : Flt) (v : Voice) (acc : Frame)

/-- What the frame gains by a voice. -/
def accumulated (x : Flt) : Frame :=
  let y := scaled Config.machine x (v.amp Config.machine c)
  acc.accumulate Config.machine (y.mul (panGainL Config.machine v.tone.pan c.pan))
    (y.mul (panGainR Config.machine v.tone.pan c.pan)) v.tone.reverb c.reverb

/-- Fetching keeps the Tone. -/
theorem fetch_tone (incr : Flt) : (v.fetch Config.machine m incr).1.tone = v.tone := by
  obtain ⟨_, _, _, _, _, h⟩ := Voice.fetch_frame Config.machine m v incr
  rw [h]

/-- A voice whose envelope goes on: it fetches, and adds its sample where the fetch did not end it. -/
theorem step_of_sounding (hphase : (Env.tick Config.machine v.env).phase ≠ .off) :
    v.step Config.machine m c ratio acc =
      let r := (advanced v).fetch Config.machine m
        (playbackIncr Config.machine v.base (glideAfter v).2 (vibAfter v).2 c.bend ratio)
      (r.1, if r.1.active then accumulated c r.1 acc r.2 else acc) := by
  have hglide : glideAfter { v with env := Env.tick Config.machine v.env } = glideAfter v := rfl
  have hvib : vibAfter
      { v with env := Env.tick Config.machine v.env, glide := (glideAfter v).1, porta := (glideAfter v).2 } = vibAfter v := rfl
  have hadvanced : { v with
      env := Env.tick Config.machine v.env
      glide := (glideAfter v).1
      porta := (glideAfter v).2
      vib := (vibAfter v).1 } = advanced v := rfl
  have htone (incr : Flt) : ((advanced v).fetch Config.machine m incr).1.tone = v.tone := fetch_tone m (advanced v) incr
  simp only [Voice.step, hphase, if_false, glideStep_eq, vibStep_eq, hglide, hvib, hadvanced, accumulated, htone,
    machine_num, numerics_mul]
  exact (apply_ite (Prod.mk _) _ _ _).symm

/-! ## Fetching (rules R283 and R284) -/

theorem fetchEnds_iff (d : DecodedSample) (pos : Flt) : fetchEnds Config.machine d pos = true ↔
    d.pcm = [] ∨ (d.looping = false ∧ (d.pcm.length : ℤ) ≤ pos.floor.floorInt) := by
  simp only [fetchEnds, Bool.or_eq_true, Bool.and_eq_true, Bool.not_eq_true', decide_eq_true_eq, List.isEmpty_iff]
  simp only [machine_num, numerics_floorInt]

theorem fetchAt_eq (d : DecodedSample) (pos : Flt) : fetchAt Config.machine d pos = interpolated d pos := by
  have hbeyond (j : Nat) : (if j < d.pcm.length then (d.pcm.getD j 0).toInt else 0) = (d.pcm.getD j 0).toInt := by
    split
    · rfl
    · next h => rw [List.getD_eq_default _ _ (Nat.le_of_not_lt h)]; rfl
  simp only [fetchAt, pcmAt, hbeyond, Bool.and_eq_true, decide_eq_true_eq]
  simp only [interpolated, machine_num, numerics_floorInt, numerics_sub, numerics_ofNat,
    numerics_ofInt, numerics_div, numerics_add, numerics_mul]
  rfl

theorem wrapPos_eq (d : DecodedSample) (pos : Flt) : wrapPos Config.machine d pos = positionAfter d pos := by
  simp only [wrapPos, positionAfter, machine_num, numerics_sub, numerics_ofNat, numerics_div, numerics_add, numerics_mul,
    numerics_floor, Bool.and_eq_true]

theorem cacheSample_of_find {m : SMap DecodedSample} {o : Nat} {d : DecodedSample} (h : SMap.find m o = some d) :
    cacheSample m o = d := by rw [cacheSample, h]; rfl

/-- A pitched voice whose sample goes on. -/
theorem fetch_of_pitched {m : SMap DecodedSample} {v : Voice} {o : Nat} {d : DecodedSample} (hsample : v.sample = some o)
    (hfind : SMap.find m o = some d) (hends : fetchEnds Config.machine d v.pos = false) (incr : Flt) :
    v.fetch Config.machine m incr =
      ({ v with pos := positionAfter d (v.pos.add incr) }, interpolated d v.pos) := by
  simp only [Voice.fetch, hsample, cacheSample_of_find hfind, Voice.pitchedSample, hends, Bool.false_eq_true, if_false,
    wrapPos_eq, fetchAt_eq, machine_num, numerics_add]

/-- A pitched voice whose sample is empty or overrun. -/
theorem fetch_of_ended {m : SMap DecodedSample} {v : Voice} {o : Nat} {d : DecodedSample} (hsample : v.sample = some o)
    (hfind : SMap.find m o = some d) (hends : fetchEnds Config.machine d v.pos = true) (incr : Flt) :
    v.fetch Config.machine m incr = ({ v with active := false }, .zero) := by
  simp only [Voice.fetch, hsample, cacheSample_of_find hfind, Voice.pitchedSample, hends, if_true]

/-- A noise voice: a new value on a crossing, else the held one. -/
theorem fetch_of_noise {v : Voice} (hsample : v.sample = none) (incr : Flt) : v.fetch Config.machine m incr =
    let a := v.noiseAcc.add incr
    let fresh := Flt.one.le a
    let smp := if fresh = true then (Config.noiseNextOpen v.noiseState).1 else v.noiseSample
    ({ v with
      noiseAcc := if fresh = true then a.sub a.floor else a
      noiseSample := smp
      noiseState := if fresh = true then (Config.noiseNextOpen v.noiseState).2 else v.noiseState },
      (Flt.ofInt smp.toInt).div (Flt.ofNat 32768)) := by
  simp only [Voice.fetch, hsample, Voice.noiseStep, machine_num, machine_noiseNext, numerics_add, numerics_sub,
    numerics_floor, numerics_ofS16]
  split <;> rfl

/-! ## Amplitude, pan and send (rules R285 to R287) -/

theorem over127_eq (x : U7) : over127 Config.machine x = factor x := by
  simp only [over127, factor, u7ToF, machine_num, numerics_div, numerics_ofNat]

theorem amp_eq : v.amp Config.machine c =
    ((((((Flt.ofInt v.env.level.toInt).div (Flt.ofNat 32768)).mul (factor v.velocity)).mul (factor v.tone.volume)).mul
      (factor v.program.volume)).mul (factor c.volume)).mul (factor c.expression) := by
  simp only [Voice.amp, List.foldl_cons, List.foldl_nil, over127_eq, machine_num, machine_envNorm, numerics_div,
    numerics_mul, numerics_ofNat, numerics_ofInt]

theorem panPos_eq (a b : U7) : panPos a b = max 0 (min 127 ((a.toNat : ℤ) + b.toNat - 64)) := by
  rw [panPos, clamp, add_sub_assoc]

/-- Adding to the frame is adding to the one-sample buffers. -/
theorem withFrames_accumulated (o : OutBuffers) (x : Flt) :
    withFrames o [accumulated c v acc x] = plusVoice (withFrames o [acc]) v v.env.level c x := by
  simp only [withFrames, accumulated, Frame.accumulate, plusVoice, scaled, amp_eq, panGainL, panGainR, panFrac, panPos_eq,
    over127_eq, machine_num, numerics_add, numerics_mul, numerics_sub, numerics_div, numerics_ofInt, numerics_ofNat,
    numerics_sqrt, numerics_isFinite, List.map_cons, List.map_nil]
  cases v.tone.reverb <;> rfl

/-! ## One sample of the whole list (rule R281) -/

/-- The modulation step changes nothing that a voice reads of its channel. -/
theorem channelAt_map_lfoStep (ch : List ChannelState) (k : Nat) :
    ∃ p, channelAt (ch.map lfoStep) k = { channelAt ch k with lfoPhase := p } := by
  rcases Nat.lt_or_ge k ch.length with hk | hk
  · exact ⟨_, channelAt_map ch lfoStep k hk⟩
  · refine ⟨(channelAt ch k).lfoPhase, ?_⟩
    rw [channelAt, channelAt, List.getD_eq_default _ _ (by simpa using hk), List.getD_eq_default _ _ hk]

/-- The voices of a state stepped by one sample. -/
def sampled (s : State) (vs : List Voice) (acc : Frame) : List Voice × Frame :=
  stepVoices Config.machine s.cache (s.ch.map lfoStep) (fun k => Config.chanLfoRatioOpen (channelAt s.ch k)) vs acc

/-- One voice of a state stepped by one sample. -/
def sampledVoice (s : State) (v : Voice) (acc : Frame) : Voice × Frame :=
  v.step Config.machine s.cache (channelAt (s.ch.map lfoStep) v.channel)
    (Config.chanLfoRatioOpen (channelAt s.ch v.channel)) acc

theorem exec_mixRender_one (s : State) : exec (.mixRender 1) s = .next { s with
    ch := s.ch.map (lfoStep^[1])
    voices := (sampled s (purge s.voices) Frame.silent).1
    out := withFrames s.out [(sampled s (purge s.voices) Frame.silent).2]
    result := .rendered } := exec_mixRender s 1

theorem sampled_append (s : State) (vs ws : List Voice) : ∀ acc, sampled s (vs ++ ws) acc =
    ((sampled s vs acc).1 ++ (sampled s ws (sampled s vs acc).2).1, (sampled s ws (sampled s vs acc).2).2) := by
  induction vs with
  | nil => exact fun _ => rfl
  | cons v vs ih =>
    intro acc
    simp only [sampled] at ih ⊢
    simp only [List.cons_append, stepVoices, ih]

theorem sampled_cons (s : State) {v : Voice} (h : v.active = true) (vs : List Voice) (acc : Frame) :
    sampled s (v :: vs) acc = ((sampledVoice s v acc).1 :: (sampled s vs (sampledVoice s v acc).2).1,
      (sampled s vs (sampledVoice s v acc).2).2) :=
  stepVoices_cons _ _ _ _ _ _ h

theorem sampled_length (s : State) (vs : List Voice) (acc : Frame) : (sampled s vs acc).1.length = vs.length :=
  stepVoices_length _ _ _ _ _ _

theorem purge_append (vs ws : List Voice) : purge (vs ++ ws) = purge vs ++ purge ws := List.filter_append ..

theorem purge_cons {v : Voice} (h : v.active = true) (vs : List Voice) : purge (v :: vs) = v :: purge vs :=
  List.filter_cons_of_pos (by simp [h])

/-! ## Voices that retire -/

/-- A voice whose envelope ends, or whose sample does, adds nothing and is retired. -/
theorem sampledVoice_of_retired (s : State) {v : Voice} (acc : Frame)
    (h : (Env.tick Config.machine v.env).phase = .off ∨ ∃ o d, v.sample = some o ∧ SMap.find s.cache o = some d ∧
      (d.pcm = [] ∨ (d.looping = false ∧ (d.pcm.length : ℤ) ≤ v.pos.floor.floorInt))) :
    (sampledVoice s v acc).2 = acc ∧ (sampledVoice s v acc).1.active = false ∧
      (sampledVoice s v acc).1.env = Env.tick Config.machine v.env := by
  by_cases hphase : (Env.tick Config.machine v.env).phase = .off
  · rw [sampledVoice, Voice.step_off _ _ _ _ _ _ hphase]
    exact ⟨rfl, rfl, rfl⟩
  · obtain ⟨o, d, hsample, hfind, hends⟩ := h.resolve_left hphase
    have hfetch := fetch_of_ended (v := advanced v) hsample hfind ((fetchEnds_iff d v.pos).mpr hends)
    simp only [sampledVoice, step_of_sounding _ _ _ _ _ hphase, hfetch]
    exact ⟨if_neg Bool.false_ne_true, True.intro, rfl⟩

/-- Settles O51. -/
theorem retiredVoiceAddsNothing : Obligations.RetiredVoiceAddsNothing := by
  intro s pre v rest hvoices hactive hretired
  let before := sampled s (purge pre) Frame.silent
  obtain ⟨hframe, hinactive, henv⟩ := sampledVoice_of_retired s before.2 hretired
  have hwith : sampled s (purge s.voices) Frame.silent =
      (before.1 ++ (sampledVoice s v before.2).1 :: (sampled s (purge rest) before.2).1,
        (sampled s (purge rest) before.2).2) := by
    rw [hvoices, purge_append, purge_cons hactive, sampled_append, sampled_cons s hactive, hframe]
  have hwithout : sampled s (purge (pre ++ rest)) Frame.silent =
      (before.1 ++ (sampled s (purge rest) before.2).1, (sampled s (purge rest) before.2).2) := by
    rw [purge_append, sampled_append]
  refine ⟨_, _, before.1, _, (sampledVoice s v before.2).1, exec_mixRender_one s,
    exec_mixRender_one { s with voices := pre ++ rest }, ?_, congrArg Prod.fst hwithout, congrArg Prod.fst hwith,
    sampled_length s _ _, hinactive, identity_step _ _ _ _ _, henv⟩
  exact congrArg (fun f => withFrames s.out [f]) ((congrArg Prod.snd hwith).trans (congrArg Prod.snd hwithout).symm)

/-! ## Voices that sound -/

/-- What a voice adds depends on what it keeps for life, not on its channel's modulation phase. -/
theorem plusVoice_congr (b : OutBuffers) {v w : Voice} (hid : identity w = identity v) (level : S16) (c : ChannelState)
    (p x : Flt) : plusVoice b w level { c with lfoPhase := p } x = plusVoice b v level c x := by
  have hvelocity : w.velocity = v.velocity := congrArg Identity.velocity hid
  have htone : w.tone = v.tone := congrArg Identity.tone hid
  have hprogram : w.program = v.program := congrArg Identity.program hid
  simp only [plusVoice, hvelocity, htone, hprogram]

/-- A voice that goes on, last in the list: the buffers gain its sample. -/
theorem exec_mixRender_of_last {s : State} {vs : List Voice} {v w : Voice} {x : Flt} (hvoices : s.voices = vs ++ [v])
    (hactive : v.active = true)
    (hlevel : w.env.level = (Env.tick Config.machine v.env).level)
    (hw : ∀ acc, sampledVoice s v acc = (w, accumulated (channelAt (s.ch.map lfoStep) v.channel) w acc x)) :
    ∃ t u : State, exec (.mixRender 1) s = .next t ∧ exec (.mixRender 1) { s with voices := vs } = .next u ∧
      t.out = plusVoice u.out v (Env.tick Config.machine v.env).level (channelAt s.ch v.channel) x ∧
      t.voices = u.voices ++ [w] := by
  let before := sampled s (purge vs) Frame.silent
  have hid : identity w = identity v := by
    have h := identity_step s.cache (channelAt (s.ch.map lfoStep) v.channel)
      (Config.chanLfoRatioOpen (channelAt s.ch v.channel)) v Frame.silent
    rwa [← sampledVoice, hw] at h
  obtain ⟨p, hchannel⟩ := channelAt_map_lfoStep s.ch v.channel
  have hlast : sampled s (purge s.voices) Frame.silent =
      (before.1 ++ [w], accumulated (channelAt (s.ch.map lfoStep) v.channel) w before.2 x) := by
    rw [hvoices, purge_append, purge_cons hactive, sampled_append, sampled_cons s hactive, hw]
    rfl
  refine ⟨_, _, exec_mixRender_one s, exec_mixRender_one { s with voices := vs }, ?_, congrArg Prod.fst hlast⟩
  calc withFrames s.out [(sampled s (purge s.voices) Frame.silent).2]
      = withFrames s.out [accumulated (channelAt (s.ch.map lfoStep) v.channel) w before.2 x] := by rw [hlast]
    _ = plusVoice (withFrames s.out [before.2]) v (Env.tick Config.machine v.env).level (channelAt s.ch v.channel) x := by
      rw [withFrames_accumulated, hlevel, hchannel, plusVoice_congr _ hid]

/-- The step of a voice that the fetch does not end. -/
theorem sampledVoice_of_sounding {s : State} {v w : Voice} {x : Flt}
    (hphase : (Env.tick Config.machine v.env).phase ≠ .off) (hfetch : (advanced v).fetch Config.machine s.cache
      (increment v (channelAt s.ch v.channel)) = (w, x)) (hactive : w.active = true) (acc : Frame) :
    sampledVoice s v acc = (w, accumulated (channelAt (s.ch.map lfoStep) v.channel) w acc x) := by
  obtain ⟨p, hchannel⟩ := channelAt_map_lfoStep s.ch v.channel
  simp only [sampledVoice, step_of_sounding _ _ _ _ _ hphase, hchannel, playbackIncr_eq, hfetch, hactive, if_true]

/-- Settles O49. -/
theorem pitchedVoiceSample : Obligations.PitchedVoiceSample := by
  intro s vs v o d hvoices hactive hsample hfind hphase hpcm hgoes
  have hends : fetchEnds Config.machine d v.pos = false := by
    rw [← Bool.not_eq_true, fetchEnds_iff]
    rintro (hempty | ⟨hloop, hover⟩)
    · exact hpcm hempty
    · rcases hgoes with h | h
      · simp [hloop] at h
      · omega
  have hfetch := fetch_of_pitched (v := advanced v) hsample hfind hends (increment v (channelAt s.ch v.channel))
  exact exec_mixRender_of_last hvoices hactive rfl (sampledVoice_of_sounding hphase hfetch hactive)

/-- Settles O50. -/
theorem noiseVoiceSample : Obligations.NoiseVoiceSample := by
  intro s vs v hvoices hactive hsample hphase acc fresh smp
  have hfetch := fetch_of_noise (v := advanced v) hsample (increment v (channelAt s.ch v.channel)) (m := s.cache)
  exact exec_mixRender_of_last hvoices hactive rfl (sampledVoice_of_sounding hphase hfetch hactive)

end Sys2Proof.Rendering
end

section
/-! Blending (44_mixer.md rules R289 and R290) and the reference host (45_sequencer_host.md rules R330 to R335): what a
blend puts out, and how many frames `SEQ.RUN` collects. -/

open Sys2Proof Sys2Proof.Machine Sys2Proof.Spec

namespace Sys2Proof.Blending

/-! ## The frames of well-formed buffers -/

theorem map_tabAt_range (l : List Flt) {n : Nat} (h : l.length = n) : (List.range n).map (tabAt l) = l := by
  subst h
  refine List.ext_getElem (by simp) fun i hi _ => ?_
  rw [List.getElem_map, List.getElem_range, tabAt, List.getD_eq_getElem]

variable {o : OutBuffers}

theorem frames_dryL (o : OutBuffers) : o.frames.map Frame.dryL = o.dryL := by
  rw [OutBuffers.frames, List.map_map]
  exact map_tabAt_range _ rfl

theorem frames_of_wf (h : o.wf) : o.frames.map Frame.dryR = o.dryR ∧ o.frames.map Frame.wetL = o.wetL ∧
    o.frames.map Frame.wetR = o.wetR := by
  obtain ⟨hdryR, hwetL, hwetR, _, _, _⟩ := h
  simp only [OutBuffers.frames, List.map_map]
  exact ⟨map_tabAt_range _ hdryR, map_tabAt_range _ hwetL, map_tabAt_range _ hwetR⟩

theorem frames_length (o : OutBuffers) : o.frames.length = o.dryL.length := by
  rw [OutBuffers.frames, List.length_map, List.length_range]

/-- The outputs of a blend: the pair of its frames, and their 16-bit form (rule R290). -/
theorem withBlend_eq (o : OutBuffers) (fs : List (Flt × Flt)) : o.withBlend Config.machine fs =
    { o with
      outL := fs.map Prod.fst
      outR := fs.map Prod.snd
      pcmL := (fs.map Prod.fst).map toPcm
      pcmR := (fs.map Prod.snd).map toPcm } := by
  simp only [OutBuffers.withBlend, List.map_map]
  rfl

/-! ## The bypass (rule R289) -/

theorem exec_mixBlend_false (s : State) : exec (.mixBlend false) s = .next { s with
    out := s.out.withBlend Config.machine (blendDry s.out.frames)
    result := .blended } := by
  rw [Block.exec_mixBlend]
  simp only [Block.effect, blend, Bool.false_eq_true, if_false]

/-- Settles O53. -/
theorem blendBypassResult : Obligations.BlendBypassResult := by
  intro s hwf
  obtain ⟨hdryR, _, _⟩ := frames_of_wf hwf
  have hL : (blendDry s.out.frames).map Prod.fst = s.out.dryL := (List.map_map ..).trans (frames_dryL s.out)
  have hR : (blendDry s.out.frames).map Prod.snd = s.out.dryR := (List.map_map ..).trans hdryR
  rw [exec_mixBlend_false, withBlend_eq, hL, hR]

/-! ## The reverb, frame by frame (rule R289) -/

theorem exec_mixBlend_true (s : State) : exec (.mixBlend true) s = .next { s with
    rvb := (blendWet Config.machine s.out.frames s.rvb).1
    out := s.out.withBlend Config.machine (blendWet Config.machine s.out.frames s.rvb).2
    result := .blended } := by
  rw [Block.exec_mixBlend]
  simp only [Block.effect, blend, if_true]

/-- A frame of the dry buffers with a frame of the reverb mixed in. -/
def mixed (f : Frame) (o : Flt × Flt) : Flt × Flt :=
  (f.dryL.add (Config.reverbMixOpen.mul o.1), f.dryR.add (Config.reverbMixOpen.mul o.2))

theorem blendWet_cons (f : Frame) (fs : List Frame) (rv : Reverb) : blendWet Config.machine (f :: fs) rv =
    let r := rv.stepFrameF Config.machine f.wetL f.wetR
    ((blendWet Config.machine fs r.1).1, mixed f r.2 :: (blendWet Config.machine fs r.1).2) := by
  simp only [blendWet, mixed, machine_num, machine_reverbMix, numerics_add, numerics_mul]

/-- A blend steps the reverb as the host's own `RVB.STEPF` operations on the wet frames do. -/
theorem blendWet_eq_stepfAll (fs : List Frame) : ∀ s : State, ∃ (u : State) (os : List (Flt × Flt)),
    stepfAll (fs.map fun f => (f.wetL, f.wetR)) s = some (u, os) ∧ os.length = fs.length ∧
      blendWet Config.machine fs s.rvb = (u.rvb, List.zipWith mixed fs os) := by
  induction fs with
  | nil => exact fun s => ⟨s, [], rfl, rfl, rfl⟩
  | cons f fs ih =>
    intro s
    let r := s.rvb.stepFrameF Config.machine f.wetL f.wetR
    let t : State := { s with
      ports := { s.ports with inFL := f.wetL, inFR := f.wetR }
      rvb := r.1
      result := .frameF r.2.1 r.2.2 }
    have hstep : exec .rvbStepf { s with ports := { s.ports with inFL := f.wetL, inFR := f.wetR } } = .next t :=
      Block.exec_rvbStepf _
    obtain ⟨u, os, hall, hlen, hblend⟩ := ih t
    refine ⟨u, r.2 :: os, ?_, congrArg (· + 1) hlen, ?_⟩
    · simp only [List.map_cons, stepfAll, hstep, hall, t]
    · have hhead : blendWet Config.machine (f :: fs) s.rvb =
          ((blendWet Config.machine fs t.rvb).1, mixed f r.2 :: (blendWet Config.machine fs t.rvb).2) :=
        blendWet_cons f fs s.rvb
      rw [hhead, hblend]
      rfl

/-- Settles O54. -/
theorem blendWetIsStepfPerFrame : Obligations.BlendWetIsStepfPerFrame := by
  intro s hwf
  obtain ⟨hdryR, hwetL, hwetR⟩ := frames_of_wf hwf
  obtain ⟨u, os, hall, hlen, hblend⟩ := blendWet_eq_stepfAll s.out.frames s
  have hzip : s.out.wetL.zip s.out.wetR = s.out.frames.map fun f => (f.wetL, f.wetR) := by
    rw [← hwetL, ← hwetR, List.zip_map']
  have hL : (List.zipWith mixed s.out.frames os).map Prod.fst =
      List.zipWith (fun d o => d.add (Config.reverbMixOpen.mul o.1)) s.out.dryL os := by
    rw [← frames_dryL s.out, List.map_zipWith, List.zipWith_map_left]
    rfl
  have hR : (List.zipWith mixed s.out.frames os).map Prod.snd =
      List.zipWith (fun d o => d.add (Config.reverbMixOpen.mul o.2)) s.out.dryR os := by
    rw [← hdryR, List.map_zipWith, List.zipWith_map_left]
    rfl
  refine ⟨u, os, _, _, hzip ▸ hall, hlen.trans (frames_length s.out), rfl, rfl, ?_⟩
  rw [exec_mixBlend_true, withBlend_eq, hblend, hL, hR]

/-! ## Lengths -/

theorem blendWet_length (fs : List Frame) : ∀ rv : Reverb, (blendWet Config.machine fs rv).2.length = fs.length := by
  induction fs with
  | nil => exact fun _ => rfl
  | cons f fs ih =>
    intro rv
    rw [blendWet_cons]
    exact congrArg (· + 1) (ih _)

/-- A blend has one output frame per dry one. -/
theorem exec_mixBlend_frames (rev : Bool) (s : State) : ∃ rv fs, fs.length = s.out.dryL.length ∧
    exec (.mixBlend rev) s = .next { s with rvb := rv, out := s.out.withBlend Config.machine fs, result := .blended } := by
  cases rev with
  | false => exact ⟨_, _, (List.length_map ..).trans (frames_length s.out), exec_mixBlend_false s⟩
  | true => exact ⟨_, _, (blendWet_length _ _).trans (frames_length s.out), exec_mixBlend_true s⟩

end Sys2Proof.Blending

namespace Sys2Proof.Sequencing

/-! ## What the reference host issues (rules R331 to R335) -/

/-- The samples an action renders. -/
def samplesOfAction : SeqAction → Nat
  | .chunk n => n.toNat
  | .issue _ => 0

/-- The samples a list of actions renders. -/
def totalSamples (as : List SeqAction) : Nat := (as.map samplesOfAction).sum

theorem totalSamples_append (as bs : List SeqAction) : totalSamples (as ++ bs) = totalSamples as + totalSamples bs := by
  rw [totalSamples, List.map_append, List.sum_append]; rfl

/-- The chunks of `n` samples hold `n` samples. -/
theorem totalSamples_chunkActions (n : Nat) : totalSamples (chunkActions n) = n := by
  have hfull : (BitVec.ofNat 24 maxChunk).toNat = maxChunk := rfl
  have hrest : (BitVec.ofNat 24 (n % maxChunk)).toNat = n % maxChunk := by
    rw [BitVec.toNat_ofNat, Nat.mod_eq_of_lt]
    have := Nat.mod_lt n (by decide : 0 < maxChunk)
    simp only [maxChunk] at this ⊢
    omega
  have hchunks : totalSamples (List.replicate (n / maxChunk) (.chunk (BitVec.ofNat 24 maxChunk))) =
      n / maxChunk * maxChunk := by
    rw [totalSamples, List.map_replicate, List.sum_replicate, samplesOfAction, hfull, smul_eq_mul]
  have hlast : totalSamples (if n % maxChunk = 0 then [] else [.chunk (BitVec.ofNat 24 (n % maxChunk))]) =
      n % maxChunk := by
    split
    · next h => rw [h]; rfl
    · rw [totalSamples, List.map_singleton, List.sum_singleton, samplesOfAction, hrest]
  rw [chunkActions, totalSamples_append, hchunks, hlast, Nat.div_add_mod']

theorem ticksToSamples_eq (delta : Nat) (bpm : Flt) (tpq : Nat) :
    ticksToSamples Config.machine delta bpm tpq = samplesOf delta bpm tpq := by
  simp only [ticksToSamples, samplesOf, samplesPerTick, machine_num, machine_sampleRate, numerics_mul, numerics_div,
    numerics_ofNat, numerics_isFinite, numerics_floorInt, Bool.or_eq_true, Bool.not_eq_true']

theorem validTempo_eq (bpm : Flt) : validTempo Config.machine bpm = usable bpm := by
  simp only [validTempo, usable, machine_num, numerics_isFinite]

/-- An event's own operation renders nothing. -/
theorem totalSamples_apply (e : SQEvent) : totalSamples e.apply = 0 := by
  unfold SQEvent.apply
  split <;> rfl

/-- The event loop renders the samples of the consumed deltas. -/
theorem totalSamples_seqEvents (tpq : Nat) (es : List SQEvent) : ∀ bpm : Flt,
    totalSamples (seqEvents Config.machine tpq es bpm) = eventSamples tpq es bpm := by
  induction es with
  | nil => exact fun _ => rfl
  | cons e es ih =>
    intro bpm
    have hgoes (b : Flt) (hvalid : e.valid Config.machine = true) (hend : e.kind ≠ .endOfTrack) (htempo : e.tempoAfter bpm = b) :
        totalSamples (seqEvents Config.machine tpq (e :: es) bpm) = samplesOf e.delta bpm tpq + eventSamples tpq es b := by
      rw [seqEvents, if_pos hvalid, if_neg hend, totalSamples_append, totalSamples_append, totalSamples_chunkActions,
        totalSamples_apply, ticksToSamples_eq, ih, htempo, Nat.zero_add]
    cases hkind : e.kind with
    | noteOn | noteOff | controller | program | pitchBend =>
      rw [hgoes bpm (by rw [SQEvent.valid, hkind]) (by rw [hkind]; exact fun h => nomatch h)
        (by rw [SQEvent.tempoAfter, hkind]), eventSamples, hkind]
    | tempo b =>
      rw [eventSamples, hkind]
      dsimp only
      split
      · next husable =>
        exact hgoes b (by rw [SQEvent.valid, hkind]; exact (validTempo_eq b).trans husable)
          (by rw [hkind]; exact fun h => nomatch h) (by rw [SQEvent.tempoAfter, hkind])
      · next husable =>
        rw [seqEvents, if_neg]
        · rfl
        · rw [SQEvent.valid, hkind]
          dsimp only
          rwa [validTempo_eq]
    | endOfTrack =>
      rw [seqEvents, if_pos (by rw [SQEvent.valid, hkind]), if_pos hkind, List.append_nil, totalSamples_chunkActions,
        ticksToSamples_eq, eventSamples, hkind]
    | invalid =>
      rw [seqEvents, if_neg (by rw [SQEvent.valid, hkind]; decide), eventSamples, hkind]
      rfl

/-- Only operations are issued. -/
def Issued (as : List SeqAction) : Prop := ∀ i, .issue i ∈ as → i.WellFormed

theorem issued_append {as bs : List SeqAction} (ha : Issued as) (hb : Issued bs) : Issued (as ++ bs) :=
  fun i hi => (List.mem_append.mp hi).elim (ha i) (hb i)

theorem issued_chunkActions (n : Nat) : Issued (chunkActions n) := by
  intro i hi
  rcases List.mem_append.mp hi with h | h
  · exact nomatch (List.eq_of_mem_replicate h)
  · split at h
    · cases h
    · exact nomatch (List.mem_singleton.mp h)

theorem issued_apply (e : SQEvent) : Issued e.apply := by
  intro i hi
  unfold SQEvent.apply at hi
  split at hi
  case h_6 | h_7 | h_8 => cases hi
  all_goals
    obtain rfl := SeqAction.issue.inj (List.mem_singleton.mp hi)
    rfl

theorem issued_seqEvents (tpq : Nat) (es : List SQEvent) : ∀ bpm, Issued (seqEvents Config.machine tpq es bpm) := by
  induction es with
  | nil => exact fun _ _ h => nomatch h
  | cons e es ih =>
    intro bpm
    rw [seqEvents]
    split
    · refine issued_append (issued_chunkActions _) ?_
      split
      · exact fun _ h => nomatch h
      · exact issued_append (issued_apply e) (ih _)
    · exact fun _ h => nomatch h

/-! ## Running them (rule R331) -/

/-- Four result buffers of one length. -/
structure Sized (b : SeqBuffers) (n : Nat) : Prop where
  resL : b.resL.length = n
  resR : b.resR.length = n
  pcmL : b.pcmL.length = n
  pcmR : b.pcmR.length = n

theorem Sized.append {b : SeqBuffers} {k : Nat} (h : Sized b k) (o : OutBuffers) (fs : List (Flt × Flt)) :
    Sized (b.append (o.withBlend Config.machine fs)) (k + fs.length) := by
  constructor <;> simp only [SeqBuffers.append, OutBuffers.withBlend, List.length_append, List.length_map, h.resL, h.resR,
    h.pcmL, h.pcmR]

/-- An action goes on, and collects what it renders. -/
theorem runAction_sized (rev : Bool) (s : State) {b : SeqBuffers} {k : Nat} (hb : Sized b k) {a : SeqAction}
    (ha : Issued [a]) : ∃ t c, runAction rev s b a = .next (t, c) ∧ Sized c (k + samplesOfAction a) := by
  cases a with
  | issue i =>
    rw [runAction, Block.exec_eq_effect i s (ha i List.mem_cons_self)]
    exact ⟨_, _, rfl, hb⟩
  | chunk n =>
    obtain ⟨_, dl, _, _, _, hrender, hlen, _⟩ := Rendering.renderResult n s
    rw [runAction, hrender]
    dsimp only
    obtain ⟨rv, fs, hfs, hblend⟩ := Blending.exec_mixBlend_frames rev _
    rw [hblend]
    refine ⟨_, _, rfl, ?_⟩
    rw [samplesOfAction, ← hlen, ← hfs]
    exact hb.append _ fs

theorem runActions_sized (rev : Bool) (as : List SeqAction) : ∀ (s : State) {b : SeqBuffers} {k : Nat}, Sized b k →
    Issued as → ∃ t c, runActions rev as s b = .next (t, c) ∧ Sized c (k + totalSamples as) := by
  induction as with
  | nil => exact fun s b _ hb _ => ⟨s, b, rfl, hb⟩
  | cons a as ih =>
    intro s b k hb hissued
    obtain ⟨t, c, hstep, hc⟩ := runAction_sized rev s hb (a := a) fun i hi =>
      hissued i (List.mem_cons.mpr (.inl (List.mem_singleton.mp hi)))
    obtain ⟨u, d, hrest, hd⟩ := ih t hc fun i hi => hissued i (List.mem_cons_of_mem _ hi)
    refine ⟨u, d, ?_, ?_⟩
    · rw [runActions, hstep]
      exact hrest
    · rwa [totalSamples, List.map_cons, List.sum_cons, ← Nat.add_assoc]

/-- Settles O60. -/
theorem sequenceFrameCount : Obligations.SequenceFrameCount := by
  intro events tpq bpm rev s
  have hloop : Issued (if tpq = 0 ∨ ¬ validTempo Config.machine bpm then [] else seqEvents Config.machine tpq events bpm) ∧
      totalSamples (if tpq = 0 ∨ ¬ validTempo Config.machine bpm then [] else seqEvents Config.machine tpq events bpm) =
        if tpq = 0 ∨ usable bpm = false then 0 else eventSamples tpq events bpm := by
    simp only [validTempo_eq, Bool.not_eq_true]
    split
    · exact ⟨fun _ h => (nomatch h), rfl⟩
    · exact ⟨issued_seqEvents tpq events bpm, totalSamples_seqEvents tpq events bpm⟩
  have htail : tailSamples Config.machine = 88200 := by rw [tailSamples, machine_tailSeconds, machine_sampleRate]
  obtain ⟨hissued, htotal⟩ := hloop
  obtain ⟨t, b, hrun, hb⟩ := runActions_sized rev _ s (b := .empty) (k := 0) ⟨rfl, rfl, rfl, rfl⟩
    (issued_append hissued (issued_chunkActions (tailSamples Config.machine)))
  rw [totalSamples_append, htotal, totalSamples_chunkActions, htail, Nat.zero_add] at hb
  exact ⟨t, b, hrun, hb.resL, hb.resR.trans hb.resL.symm, hb.pcmL.trans hb.resL.symm, hb.pcmR.trans hb.resL.symm⟩

end Sys2Proof.Sequencing
end

section
/-! The invariant of the block (`State.Inv`): reset has it, and every step keeps it, unit by unit. -/

open Sys2Proof Sys2Proof.Machine Sys2Proof.Spec

namespace Sys2Proof.Invariant

/-! ## The decode cache (rules R22 and R23) -/

/-- The loop start is the start of a decoded block. -/
theorem afterBlocks_loopStart_bounds (buf : List Byte) (m : Nat) :
    (Adpcm.afterBlocks buf m).loopStart % 28 = 0 ∧ (0 < m → (Adpcm.afterBlocks buf m).loopStart < 28 * m) := by
  induction m with
  | zero => exact ⟨rfl, fun h => absurd h (Nat.lt_irrefl 0)⟩
  | succ m ih =>
    obtain ⟨hmod, hlt⟩ := ih
    rw [Adpcm.afterBlocks_loopStart_succ]
    split
    · exact ⟨by omega, fun _ => by omega⟩
    · refine ⟨hmod, fun _ => ?_⟩
      rcases Nat.eq_zero_or_pos m with rfl | hpos
      · exact Nat.zero_lt_succ _
      · have := hlt hpos
        omega

theorem adpcmDecode_wf (buf : List Byte) : (adpcmDecode Config.machine buf).wf := by
  obtain ⟨m, _, heq⟩ := Adpcm.adpcmDecode_eq buf
  obtain ⟨hmod, hlt⟩ := afterBlocks_loopStart_bounds buf m
  have hlen := Adpcm.afterBlocks_length buf m
  rw [heq]
  refine ⟨?_, ?_, hmod, fun hpos => ?_⟩
  · dsimp only; omega
  · rfl
  · dsimp only at hpos ⊢
    have := hlt (by omega)
    omega

theorem adpcmFetch_cacheWf (src : SMap (List Byte)) {c : SMap DecodedSample} (h : cacheWf c) (o : Nat) :
    cacheWf (adpcmFetch Config.machine src c o) := by
  obtain ⟨hwf, hentries⟩ := h
  refine ⟨adpcmFetch_wf _ _ _ _ hwf, ?_⟩
  rcases adpcmFetch_cases Config.machine src c o with ⟨_, heq⟩ | ⟨_, heq⟩ <;> rw [heq]
  · exact hentries
  · intro e he
    rcases SMap.mem_put _ _ _ _ he with rfl | he
    · exact adpcmDecode_wf _
    · exact hentries e he

theorem foldl_newVoiceCache_cacheWf (src : SMap (List Byte)) (ts : List Tone) : ∀ {c : SMap DecodedSample}, cacheWf c →
    cacheWf (ts.foldl (newVoiceCache Config.machine src) c) := by
  induction ts with
  | nil => exact fun h => h
  | cons t ts ih =>
    intro c h
    refine ih ?_
    unfold newVoiceCache
    split
    · exact h
    · exact adpcmFetch_cacheWf src h _

/-! ## The reverb (rules R27 and R69) -/

/-- The delay memory is canonical and inside the address space. -/
def MemoryWf (m : SMap S16) : Prop := Memory.wf m ∧ ∀ c ∈ m, c.1 < 262144

theorem write_memoryWf {m : SMap S16} (h : MemoryWf m) {a : Nat} (ha : a < 262144) (v : S16) :
    MemoryWf (Memory.write m a v) := by
  obtain ⟨hwf, hrange⟩ := h
  refine ⟨Memory.write_wf m a v hwf, fun c hc => ?_⟩
  unfold Memory.write at hc
  split at hc
  · exact hrange c (SMap.mem_del _ _ _ hc)
  · rcases SMap.mem_put _ _ _ _ hc with rfl | hc
    · exact ha
    · exact hrange c hc

variable {rv : Reverb}

theorem rvbWrite_memoryWf (h : MemoryWf rv.mem) (rel v : ℤ) : MemoryWf (rv.write Config.machine rel v).mem := by
  obtain ⟨_, hlt⟩ := rv.addr_bounds rel
  exact write_memoryWf h hlt _

theorem reflect_memoryWf (h : MemoryWf rv.mem) (m d : RvbReg) (x : ℤ) :
    MemoryWf (rv.reflect Config.machine m d x).mem := by
  rw [Reverb.reflect]
  exact rvbWrite_memoryWf h _ _

theorem allPass_memoryWf (h : MemoryWf rv.mem) (x : ℤ) (m d g : RvbReg) :
    MemoryWf (rv.allPass Config.machine x m d g).1.mem := by
  rw [Reverb.allPass]
  exact rvbWrite_memoryWf h _ _

theorem reflections_memoryWf (h : MemoryWf rv.mem) (inL inR : S16) :
    MemoryWf (rv.reflections Config.machine inL inR).mem := by
  rw [Reverb.reflections]
  exact reflect_memoryWf (reflect_memoryWf (reflect_memoryWf (reflect_memoryWf h _ _ _) _ _ _) _ _ _) _ _ _

theorem allPasses_memoryWf (h : MemoryWf rv.mem) (l r : ℤ) : MemoryWf (rv.allPasses Config.machine l r).1.mem := by
  rw [Reverb.allPasses]
  exact allPass_memoryWf (allPass_memoryWf (allPass_memoryWf (allPass_memoryWf h _ _ _ _) _ _ _ _) _ _ _ _) _ _ _ _

theorem stepFrame_wf (h : rv.wf) (inL inR : S16) : (rv.stepFrame Config.machine inL inR).1.wf := by
  obtain ⟨hmem, hrange, hlo, hhi⟩ := h
  have hbase := Reverb.base_of_reg Config.machine _ rv (Reverb.stepFrame_reg Config.machine rv inL inR)
  have hcursor := Reverb.stepFrame_cursor Config.machine rv inL inR
  have hlt := rv.base_lt
  obtain ⟨hmem', hrange'⟩ : MemoryWf (rv.stepFrame Config.machine inL inR).1.mem := by
    simp only [Reverb.stepFrame, Reverb.advance_mem]
    exact allPasses_memoryWf (reflections_memoryWf ⟨hmem, hrange⟩ inL inR) _ _
  refine ⟨hmem', hrange', ?_, ?_⟩
  · rw [hbase, hcursor]
    split <;> omega
  · rw [hcursor, machine_rvbMemSamples]
    split <;> omega

theorem stepFrameF_wf (h : rv.wf) (inL inR : Flt) : (rv.stepFrameF Config.machine inL inR).1.wf := by
  rw [Reverb.stepFrameF]
  exact stepFrame_wf h (toPcm inL) (toPcm inR)

theorem clear_wf (rv : Reverb) : (rv.clear Config.machine).wf := by
  have hbase : (rv.clear Config.machine).base Config.machine = rv.base Config.machine :=
    Reverb.base_of_reg _ _ _ (Reverb.clear_reg _ _)
  refine ⟨⟨List.Pairwise.nil, fun _ h => (nomatch h)⟩, fun _ h => (nomatch h), ?_, ?_⟩
  · rw [hbase, Reverb.clear_cursor]
  · rw [Reverb.clear_cursor]
    exact rv.base_lt

/-- A write moves the cursor to the new base or leaves the base as it is. -/
theorem writeReg_wf (h : rv.wf) (i : Fin numRvbRegs) (v : U16) : (rv.writeReg Config.machine i v).wf := by
  obtain ⟨hmem, hrange, hlo, hhi⟩ := h
  rw [Reverb.writeReg]
  dsimp only
  split
  · exact ⟨hmem, hrange, le_rfl, Reverb.base_lt _⟩
  · next hother =>
    have hbase : Reverb.base Config.machine { rv with reg := rv.reg.set i v } = rv.base Config.machine := by
      rw [ReverbUnit.base_eq, ReverbUnit.base_eq]
      dsimp only
      rw [Vector.getElem_set_ne]
      exact fun heq => hother (Fin.ext heq)
    exact ⟨hmem, hrange, hbase.trans_le hlo, hhi⟩

/-! ## Voices (rule R32) -/

variable {cache : SMap DecodedSample} {v : Voice}

theorem vibAfter_wf (h : v.vib.wf) : (vibAfter v).1.wf := by
  unfold vibAfter
  split
  · exact Vibrato.tick_wf _ _ _ h
  · exact h

theorem voiceStep_wf (h : v.wf cache) (m : SMap DecodedSample) (c : ChannelState) (ratio : Flt) (acc : Frame) :
    (v.step Config.machine m c ratio acc).1.wf cache := by
  obtain ⟨henv, hvib, hchannel, hsample⟩ := h
  by_cases hphase : (Env.tick Config.machine v.env).phase = .off
  · rw [Voice.step_off _ _ _ _ _ _ hphase]
    exact ⟨Envelope.tick_wf henv, hvib, hchannel, hsample⟩
  · obtain ⟨_, _, _, _, _, hfetch⟩ := Voice.fetch_frame Config.machine m (Rendering.advanced v)
      (playbackIncr Config.machine v.base (glideAfter v).2 (vibAfter v).2 c.bend ratio)
    rw [Rendering.step_of_sounding _ _ _ _ _ hphase]
    dsimp only
    rw [hfetch]
    exact ⟨Envelope.tick_wf henv, vibAfter_wf hvib, hchannel, hsample⟩

theorem keyOff_wf (h : v.wf cache) (pending : Bool) :
    Voice.wf cache { v with releasePending := pending, env := Env.keyOff Config.machine v.env } := by
  obtain ⟨henv, hrest⟩ := h
  exact ⟨Envelope.keyOff_wf henv, hrest⟩

/-- A larger cache still has every handle. -/
theorem wf_of_larger {cache' : SMap DecodedSample} (h : v.wf cache)
    (hlarger : ∀ o d, SMap.find cache o = some d → SMap.find cache' o = some d) : v.wf cache' := by
  obtain ⟨henv, hvib, hchannel, hsample⟩ := h
  refine ⟨henv, hvib, hchannel, fun o ho => ?_⟩
  obtain ⟨d, hd⟩ := Option.isSome_iff_exists.mp (hsample o ho)
  rw [hlarger o d hd]
  rfl

theorem newVoice_wf (b : SMap BreathTable) {k : Nat} (hk : k < 16) (c : ChannelState) (key velocity : U7) (p : Program)
    (t : Tone) (hcache : t.noise = false → (SMap.find cache t.sampleOffset).isSome = true) :
    (newVoice Config.machine b k c key velocity p t).wf cache := by
  refine ⟨Envelope.keyOn_wf _, MixerEvents.vibSetup_wf b c p t, hk, fun o ho => ?_⟩
  have hsample : (newVoice Config.machine b k c key velocity p t).sample = if t.noise then none else some t.sampleOffset := rfl
  rw [hsample] at ho
  split at ho
  · cases ho
  · next hnoise => exact Option.some.inj ho ▸ hcache (Bool.eq_false_of_not_eq_true hnoise)

theorem stepVoices_wf (m : SMap DecodedSample) (ch : List ChannelState) (lfo : Nat → Flt) (vs : List Voice) :
    ∀ acc, (∀ v ∈ vs, v.wf cache) → ∀ v ∈ (stepVoices Config.machine m ch lfo vs acc).1, v.wf cache := by
  induction vs with
  | nil => exact fun _ h => h
  | cons w vs ih =>
    intro acc h v hv
    obtain ⟨hw, hvs⟩ := List.forall_mem_cons.mp h
    cases hactive : w.active with
    | false =>
      rw [stepVoices_inactive _ _ _ _ _ _ _ hactive] at hv
      rcases List.mem_cons.mp hv with rfl | hv
      · exact hw
      · exact ih acc hvs v hv
    | true =>
      rw [Rendering.stepVoices_cons _ _ _ _ _ _ hactive] at hv
      rcases List.mem_cons.mp hv with rfl | hv
      · exact voiceStep_wf hw _ _ _ _
      · exact ih _ hvs v hv

theorem renderSamples_wf (m : SMap DecodedSample) (n : Nat) : ∀ x : MixState, (∀ v ∈ x.voices, v.wf cache) →
    ∀ v ∈ (renderSamples Config.machine m n x).1.voices, v.wf cache := by
  induction n with
  | zero => exact fun _ h => h
  | succ n ih => exact fun x h => ih _ (stepVoices_wf m _ _ _ _ h)

/-! ## Channels (rule R31) -/

theorem chDefaults_wf : chDefaults.wf := ⟨rfl, MixerEvents.zero_lt_one⟩

theorem resetControllers_wf (c : ChannelState) : (ChannelState.resetControllers Config.machine c).wf := by
  rw [ChannelState.resetControllers, machine_chDefault]
  exact chDefaults_wf

theorem iterate_lfoStep_wf (n : Nat) : ∀ {c : ChannelState}, c.wf → (lfoStep^[n] c).wf := by
  induction n with
  | zero => exact fun h => h
  | succ n ih => exact fun h => ih (c := lfoStep _) h

/-! ## The state, operation by operation -/

variable {s : State} {k : Nat}

theorem inv_present (h : s.Inv) (c : Command) (rest : List Command) : (present s c rest).Inv := { h with }

theorem inv_withResult (h : s.Inv) (r : Result) : State.Inv { s with result := r } := { h with }

theorem inv_reverb (h : s.Inv) {rv : Reverb} (hrv : rv.wf) (r : Result) : State.Inv { s with rvb := rv, result := r } :=
  { h with rvb := hrv }

theorem channelAt_wf (h : s.Inv) (hk : k < 16) : (channelAt s.ch k).wf :=
  h.ch _ (channelAt_mem s.ch k (by rw [h.slots]; exact hk))

theorem inv_setChannel (h : s.Inv) {c : ChannelState} (hc : c.wf) : (setChannel s k c).Inv :=
  { h with
    slots := List.length_set.trans h.slots
    ch := fun _ hx => (List.mem_or_eq_of_mem_set hx).elim (h.ch _) (fun heq => heq ▸ hc) }

/-- Changing voices one by one. -/
theorem inv_mapVoices (h : s.Inv) {f : Voice → Voice} (hf : ∀ v, v.wf s.cache → (f v).wf s.cache) :
    State.Inv { s with voices := s.voices.map f } :=
  { h with
    voices := fun v hv => by
      obtain ⟨w, hw, rfl⟩ := List.mem_map.mp hv
      exact hf w (h.voices w hw) }

theorem inv_adpcmFetch (h : s.Inv) (o : Nat) :
    State.Inv { s with cache := adpcmFetch Config.machine s.src s.cache o } := by
  obtain ⟨hwf, _⟩ := h.cache
  refine { h with cache := adpcmFetch_cacheWf s.src h.cache o, voices := fun v hv => wf_of_larger (h.voices v hv) ?_ }
  intro p d hd
  rw [Adpcm.find_adpcmFetch s.src hwf]
  split
  · next heq => rw [← heq, hd]; rfl
  · exact hd

theorem inv_noteOn (h : s.Inv) (hk : k < 16) (key velocity : U7) : (noteOn Config.machine s k key velocity).Inv := by
  obtain ⟨hwf, _⟩ := h.cache
  unfold noteOn
  split
  · exact h
  · next p _ =>
    by_cases hmatch : matchTones p key = []
    · rwa [MixerEvents.noteOnProgram_of_nil s k key velocity hmatch]
    · have hlarger := fun o d => Adpcm.find_foldl_of_find s.src (matchTones p key) hwf (o := o) (d := d)
      have hchannel : ChannelState.wf { channelAt s.ch k with lastPitch := Flt.ofNat key.toNat, hasLast := true } :=
        channelAt_wf h hk
      rw [MixerEvents.noteOnProgram_eq s k key velocity hmatch]
      refine { inv_setChannel h hchannel with cache := foldl_newVoiceCache_cacheWf s.src _ h.cache, voices := fun v hv => ?_ }
      rcases List.mem_append.mp hv with hv | hv
      · exact wf_of_larger (h.voices v hv) hlarger
      · obtain ⟨t, ht, rfl⟩ := List.mem_map.mp hv
        refine newVoice_wf _ hk _ _ _ _ _ fun hnoise => ?_
        obtain ⟨hfetched, _⟩ := Adpcm.find_foldl_newVoiceCache s.src (matchTones p key) t.sampleOffset hwf
        rw [hfetched ⟨t, ht, hnoise, rfl⟩]
        rfl

theorem inv_noteOff (h : s.Inv) (key : U7) : (noteOff Config.machine s k key).Inv := by
  refine inv_mapVoices h fun v hv => ?_
  split
  · unfold Voice.noteOff
    split
    · exact hv
    · exact keyOff_wf hv _
  · exact hv

theorem inv_setSustain (h : s.Inv) (hk : k < 16) (on : Bool) : (setSustain Config.machine s k on).Inv := by
  have hchannel : ChannelState.wf { channelAt s.ch k with sustain := on } := channelAt_wf h hk
  cases on with
  | true => exact inv_setChannel h hchannel
  | false =>
    refine inv_mapVoices (inv_setChannel h hchannel) fun v hv => ?_
    split
    · exact keyOff_wf hv _
    · exact hv

theorem inv_controlChange (h : s.Inv) (hk : k < 16) (number value : U7) :
    (controlChange Config.machine s k number value).Inv := by
  unfold controlChange
  dsimp only
  split
  case h_8 => exact inv_setSustain h hk _
  case h_9 => exact inv_setSustain (inv_setChannel h (resetControllers_wf _)) hk _
  case h_10 =>
    split
    · exact inv_setChannel h (channelAt_wf h hk)
    · exact h
  all_goals exact inv_setChannel h (channelAt_wf h hk)

theorem inv_render (h : s.Inv) (n : Nat) : (render Config.machine n s).Inv := by
  have hlen := renderSamples_length Config.machine s.cache n { ch := s.ch, voices := purge s.voices }
  obtain ⟨_, _, _, hout⟩ := h.out
  rw [Rendering.render_eq]
  refine { h with slots := (List.length_map _).trans h.slots, ch := fun c hc => ?_, voices := ?_, out := ?_ }
  · obtain ⟨d, hd, rfl⟩ := List.mem_map.mp hc
    exact iterate_lfoStep_wf n (h.ch d hd)
  · exact renderSamples_wf s.cache n _ fun v hv => h.voices v (List.mem_of_mem_filter hv)
  · refine ⟨?_, ?_, ?_, hout⟩
    all_goals simp only [Rendering.withFrames, List.length_map]

theorem withBlend_wf {o : OutBuffers} (h : o.wf) (fs : List (Flt × Flt)) : (o.withBlend Config.machine fs).wf := by
  obtain ⟨hdryR, hwetL, hwetR, _⟩ := h
  refine ⟨hdryR, hwetL, hwetR, ?_⟩
  simp only [OutBuffers.withBlend, List.length_map, and_self]

theorem blendWet_wf (fs : List Frame) : ∀ {rv : Reverb}, rv.wf → (blendWet Config.machine fs rv).1.wf := by
  induction fs with
  | nil => exact fun h => h
  | cons f fs ih =>
    intro rv h
    rw [Blending.blendWet_cons]
    exact ih (stepFrameF_wf h _ _)

theorem inv_blend (h : s.Inv) (rev : Bool) : (blend Config.machine rev s).Inv := by
  cases rev with
  | false =>
    simp only [blend, Bool.false_eq_true, if_false]
    exact { h with out := withBlend_wf h.out _ }
  | true =>
    simp only [blend, if_true]
    exact { h with rvb := blendWet_wf _ h.rvb, out := withBlend_wf h.out _ }

/-- Every operation keeps the invariant. -/
theorem inv_effect (h : s.Inv) (i : Instr) : (Block.effect i s).Inv := by
  cases i with
  | adpcmDecode => exact inv_withResult h _
  | adpcmFetch => exact inv_withResult (inv_adpcmFetch h _) _
  | envLoad => exact { h with envd := Envelope.load_wf _ _ _ }
  | envKeyon => exact { h with envd := Envelope.keyOn_wf _ }
  | envKeyoff => exact { h with envd := Envelope.keyOff_wf h.envd }
  | envTick => exact { h with envd := Envelope.tick_wf h.envd }
  | rvbWrite index value =>
    simp only [Block.effect]
    split
    · exact h
    · exact { h with rvb := writeReg_wf h.rvb _ _ }
  | rvbReset => exact { h with rvb := clear_wf _ }
  | rvbStep => exact inv_reverb h (stepFrame_wf h.rvb s.ports.inL s.ports.inR) _
  | rvbStepf => exact inv_reverb h (stepFrameF_wf h.rvb s.ports.inFL s.ports.inFR) _
  | vibConfig hasShape hasDepth => exact { h with vibd := Vibrato.config_wf _ _ _ _ _ _ }
  | vibTick => exact { h with vibd := Vibrato.tick_wf _ _ _ h.vibd }
  | mixNoteOn a key velocity => exact Block.onChannel_induction a _ s h fun k hk => inv_noteOn h hk key velocity
  | mixNoteOff a key => exact Block.onChannel_induction a _ s h fun k _ => inv_noteOff h key
  | mixProgram a program => exact Block.onChannel_induction a _ s h fun k hk => inv_setChannel h (channelAt_wf h hk)
  | mixBend a bend =>
    exact Block.onChannel_induction a _ s h fun k _ => inv_setChannel h (MixerEvents.bendRatio_wf bend _)
  | mixCc a number value => exact Block.onChannel_induction a _ s h fun k hk => inv_controlChange h hk number value
  | mixRender n =>
    simp only [Block.effect]
    exact inv_withResult (inv_render h _) _
  | mixBlend rev =>
    simp only [Block.effect]
    exact inv_withResult (inv_blend h rev) _
  | fmtAdpcmHdr | fmtAdpcmFlags | fmtAdsr | fmtRate => exact h

/-- Settles O12. -/
theorem stepKeepsInv : Obligations.StepKeepsInv := by
  intro s t h ht
  rcases step_cases s with ⟨_, hidle⟩ | ⟨c, rest, _, ⟨i, _, hexec⟩ | ⟨_, _, hignored⟩⟩
  · rw [hidle] at ht
    exact Host.Outcome.next.inj ht ▸ h
  · rw [hexec] at ht
    obtain ⟨_, rfl⟩ := (Block.exec_eq_next_iff i _ t).mp ht
    exact inv_effect (inv_present h c rest) i
  · rw [hignored] at ht
    exact Host.Outcome.next.inj ht ▸ inv_present h c rest

/-! ## Reset (rules R39 and R380) -/

theorem reset_rvb : State.reset.rvb = { reg := Vector.replicate numRvbRegs 0, mem := [], cursor := 0 } := rfl

theorem fresh_rvb_wf : Reverb.wf { reg := Vector.replicate numRvbRegs 0, mem := [], cursor := 0 } := by
  refine ⟨⟨List.Pairwise.nil, fun _ h => (nomatch h)⟩, fun _ h => (nomatch h), ?_, by decide⟩
  rw [ReverbUnit.base_eq]
  rfl

/-- Settles O11. -/
theorem resetSatisfiesInv : Obligations.ResetSatisfiesInv where
  cache := ⟨List.Pairwise.nil, fun _ h => (nomatch h)⟩
  envd := Envelope.fresh_wf
  rvb := reset_rvb ▸ fresh_rvb_wf
  vibd := Vibrato.fresh_wf
  slots := List.length_replicate
  ch := fun _ hc => List.eq_of_mem_replicate hc ▸ chDefaults_wf
  voices := fun _ h => (nomatch h)
  out := ⟨rfl, rfl, rfl, rfl, rfl, rfl⟩

/-- Settles O13. -/
theorem resetValues : Obligations.ResetValues := by
  refine ⟨rfl, rfl, rfl, fun i => ?_, fun _ => rfl, rfl, rfl, rfl, rfl⟩
  rw [reset_rvb]
  exact Vector.getElem_replicate i.isLt

end Sys2Proof.Invariant
end
